-- ==== Sys2Proof/Word.lean ====
section
/-! DEFINITION. The word types of the host port (spec/20_memory.md R61, R62). -/

namespace Sys2Proof

/-- The 32-bit word of the host port and of the command (R61, R90). -/
abbrev Word := BitVec 32

/-- The 12-bit word address of the host port (R61): byte offset `off = 4 * wa` (R62). -/
abbrev WordAddr := BitVec 12

end Sys2Proof
end

