-- ==== Sys2Proof/Config.lean ====
section
/-! DEFINITION. What an implementation fixes (spec/00_scope.md R5 to R7, spec/20_memory.md R62) and the free values
(spec/10_state.md R41). The opaque constants have no body: a claim holds whatever they are. -/

namespace Sys2Proof.Config

/-- A build of the engine: the number of 32-bit limbs of a wide register, `LIMBS = W / 32`, with
`64 <= W <= 4096` (R5). -/
structure Build where
  limbs : Nat
  two_le_limbs : 2 ≤ limbs
  limbs_le_max : limbs ≤ 128
deriving DecidableEq, Repr

/-- `W`, the operand width in bits (R5). -/
abbrev Build.W (b : Build) : Nat := 32 * b.limbs

/-- The build of `State.reset`: `W = 64`. DESIGN CHOICE (log 1), unsafe for a claim about `State.reset` alone: `W` is
a parameter of the model (R5), and the spec's own bus words are shown for 64 (95_test_vectors.md). -/
def referenceBuild : Build := ⟨2, by decide, by decide⟩

/-- The largest round count one ISPRIME command can carry (R7, R96). -/
def maxRounds : Nat := 65535

/-- The randomness source behind the port `rng` (R41, R148): the k-th word it supplies, any natural number, under no
law. Free value (log 3): safe for a claim about one run; that two runs with one index see one word is the model's. -/
opaque rng : Nat → Nat

/-- The platform's choice of the window's place, in units of 16 KiB (R62). Free value, safe (log 9). -/
opaque baseIndex : Nat

/-- `BASE`, the window's byte address in the host's address space, a multiple of 16 KiB (R62). -/
def base : Nat := 0x4000 * baseIndex

end Sys2Proof.Config
end

