-- ==== Sys2Proof/Syntax.lean ====
section
/-! DEFINITION. The eleven commands (spec/30_encoding.md R97, R98), their operands in the order of R98. -/

namespace Sys2Proof

/-- The index of an integer register `R0..R7` (R92). -/
abbrev RIdx := Fin 8

/-- The index of a point register `P0..P3` (R94). -/
abbrev PIdx := Fin 4

/-- One command, one constructor per row of spec/opcode_table.json (R98). -/
inductive Instr where
  /-- NOP (44_system.md R200). -/
  | nop
  /-- MODRED Rd, Rs1, Rs3 (40_modular.md R124). -/
  | modred (rd rs1 rs3 : RIdx)
  /-- MODINV Rd, Rs1, Rs3 (40_modular.md R128). -/
  | modinv (rd rs1 rs3 : RIdx)
  /-- MODPOW Rd, Rs1, Rs2, Rs3 (40_modular.md R133). -/
  | modpow (rd rs1 rs2 rs3 : RIdx)
  /-- MRROUND Rs1, Rs2 (41_primality.md R143). -/
  | mrround (rs1 rs2 : RIdx)
  /-- ISPRIME Rs1, rounds (41_primality.md R146). -/
  | isprime (rs1 : RIdx) (rounds : Nat)
  /-- ECONCURVE Ps1 (42_ec_point.md R167). -/
  | econcurve (ps1 : PIdx)
  /-- ECNEG Pd, Ps1 (42_ec_point.md R168). -/
  | ecneg (pd ps1 : PIdx)
  /-- ECDBL Pd, Ps1 (42_ec_point.md R169). -/
  | ecdbl (pd ps1 : PIdx)
  /-- ECADD Pd, Ps1, Ps2 (42_ec_point.md R170). -/
  | ecadd (pd ps1 ps2 : PIdx)
  /-- ECSMUL Pd, Rk, Ps1 (43_ec_scalar.md R192). -/
  | ecsmul (pd : PIdx) (rk : RIdx) (ps1 : PIdx)
deriving DecidableEq, Repr

end Sys2Proof
end

