-- ==== Sys2Proof/WellFormed.lean ====
section
/-! DEFINITION. What a command must satisfy to have an encoding. Every register index is valid (spec/30_encoding.md
R92, R94) and is bounded by its type; the one check left is the round count of ISPRIME (R96). -/

namespace Sys2Proof

/-- The command has an encoding: ISPRIME's round count fits its 16-bit field (R96, spec/00_scope.md R7). -/
def Instr.wellFormed : Instr → Bool
  | .nop => true
  | .modred _ _ _ => true
  | .modinv _ _ _ => true
  | .modpow _ _ _ _ => true
  | .mrround _ _ => true
  | .isprime _ rounds => decide (rounds ≤ Config.maxRounds)
  | .econcurve _ => true
  | .ecneg _ _ => true
  | .ecdbl _ _ => true
  | .ecadd _ _ _ => true
  | .ecsmul _ _ _ => true

end Sys2Proof
end

