-- ==== Sys2Proof/Decode.lean ====
section
/-! DEFINITION. The decoder (spec/30_encoding.md R98 to R100), the encoder (R90 to R96) and the assembler's spelling
of a command (R101). The command is one 32-bit word written whole (R90), so no byte order enters (spec/20_memory.md R69). -/

namespace Sys2Proof

/-- The eleven rows of the opcode map (R97). -/
inductive Op where
  | nop | modred | modinv | modpow | mrround | isprime | econcurve | ecneg | ecdbl | ecadd | ecsmul
deriving DecidableEq, Repr

/-- Every row, in the order of R98. -/
def Op.all : List Op :=
  [.nop, .modred, .modinv, .modpow, .mrround, .isprime, .econcurve, .ecneg, .ecdbl, .ecadd, .ecsmul]

/-- The mnemonic of a row (R97). -/
def Op.mnemonic : Op → String
  | .nop => "NOP"
  | .modred => "MODRED"
  | .modinv => "MODINV"
  | .modpow => "MODPOW"
  | .mrround => "MRROUND"
  | .isprime => "ISPRIME"
  | .econcurve => "ECONCURVE"
  | .ecneg => "ECNEG"
  | .ecdbl => "ECDBL"
  | .ecadd => "ECADD"
  | .ecsmul => "ECSMUL"

/-- The opcode in bits 7 to 0 (R97). -/
def Op.opcode : Op → BitVec 8
  | .nop => 0x00
  | .modred => 0x10
  | .modinv => 0x11
  | .modpow => 0x12
  | .mrround => 0x18
  | .isprime => 0x19
  | .econcurve => 0x20
  | .ecneg => 0x21
  | .ecdbl => 0x22
  | .ecadd => 0x23
  | .ecsmul => 0x24

/-- The column "match" of R98. -/
def Op.pattern : Op → Word
  | .nop => 0x00000000
  | .modred => 0x00000010
  | .modinv => 0x00000011
  | .modpow => 0x00000012
  | .mrround => 0x00000018
  | .isprime => 0x00000019
  | .econcurve => 0x00000020
  | .ecneg => 0x00000021
  | .ecdbl => 0x00000022
  | .ecadd => 0x00000023
  | .ecsmul => 0x00000024

/-- The column "mask" of R98. -/
def Op.mask : Op → Word
  | .nop => 0xFFFFFFFF
  | .modred => 0xFF8F88FF
  | .modinv => 0xFF8F88FF
  | .modpow => 0xFF8888FF
  | .mrround => 0xFFF88FFF
  | .isprime => 0x00008FFF
  | .econcurve => 0xFFFFCFFF
  | .ecneg => 0xFFFFCCFF
  | .ecdbl => 0xFFFFCCFF
  | .ecadd => 0xFFFCCCFF
  | .ecsmul => 0xFF8FCCFF

/-- A word is the command of a row exactly when its masked bits are the row's match (R98). -/
def Op.matchesWord (o : Op) (c : Word) : Bool := c &&& o.mask == o.pattern

/-- The 3-bit index field whose lowest bit is `lo` (R92, R94). -/
def fieldR (c : Word) (lo : Nat) : RIdx := (c.extractLsb' lo 3).toFin

/-- The 2-bit index field whose lowest bit is `lo` (R94). -/
def fieldP (c : Word) (lo : Nat) : PIdx := (c.extractLsb' lo 2).toFin

/-- `imm16`, bits 31 to 16, read as an unsigned integer (R96). -/
def fieldRounds (c : Word) : Nat := (c.extractLsb' 16 16).toNat

/-- The command of a row with the fields the row uses (R100): `rd` at 8, `rs1` at 12, `rs2` at 16, `rs3` and `rk` at
20; `pd` at 8, `ps1` at 12, `ps2` at 16. -/
def Op.operands (o : Op) (c : Word) : Instr :=
  match o with
  | .nop => .nop
  | .modred => .modred (fieldR c 8) (fieldR c 12) (fieldR c 20)
  | .modinv => .modinv (fieldR c 8) (fieldR c 12) (fieldR c 20)
  | .modpow => .modpow (fieldR c 8) (fieldR c 12) (fieldR c 16) (fieldR c 20)
  | .mrround => .mrround (fieldR c 12) (fieldR c 16)
  | .isprime => .isprime (fieldR c 12) (fieldRounds c)
  | .econcurve => .econcurve (fieldP c 12)
  | .ecneg => .ecneg (fieldP c 8) (fieldP c 12)
  | .ecdbl => .ecdbl (fieldP c 8) (fieldP c 12)
  | .ecadd => .ecadd (fieldP c 8) (fieldP c 12) (fieldP c 16)
  | .ecsmul => .ecsmul (fieldP c 8) (fieldR c 20) (fieldP c 12)

/-- The decoder's answer: a command, or the name under which every other word is rejected (R99, R100). -/
inductive Decoded where
  | command (i : Instr)
  | illegalCommand
deriving DecidableEq, Repr

/-- The decoder of R100, total on every 32-bit word. -/
def decode (c : Word) : Decoded :=
  match Op.all.find? (fun o => o.matchesWord c) with
  | some o => .command (o.operands c)
  | none => .illegalCommand

/-- The instruction the decoder reads from a word of the opcode table's numbering: `nbits` bits, those above are 0. -/
def decodeTableWord (nbits w : Nat) : Option Instr :=
  match decode (BitVec.ofNat 32 (w % 2 ^ nbits)) with
  | .command i => some i
  | .illegalCommand => none

/-! The encoder, written from the format tables R91 to R94: each field at its lowest bit, every other bit 0 (R95). -/

/-- A field of a word at its lowest bit. -/
def place {n : Nat} (v : BitVec n) (lo : Nat) : Word := v.setWidth 32 <<< lo

/-- A 3-bit index as a field. -/
def rBits (i : RIdx) : BitVec 3 := BitVec.ofFin i

/-- A 2-bit index as a field. -/
def pBits (j : PIdx) : BitVec 2 := BitVec.ofFin j

/-- Format N (R91): the opcode in 7:0. -/
def formatN (op : BitVec 8) : Word := place op 0

/-- Format M (R92): `rs3` 22:20, `rs2` 18:16, `rs1` 14:12, `rd` 10:8, the opcode 7:0. -/
def formatM (op : BitVec 8) (rd rs1 rs2 rs3 : RIdx) : Word :=
  place (rBits rs3) 20 ||| place (rBits rs2) 16 ||| place (rBits rs1) 12 ||| place (rBits rd) 8 ||| place op 0

/-- Format I (R93): `imm16` 31:16, `rs1` 14:12, the opcode 7:0. -/
def formatI (op : BitVec 8) (rs1 : RIdx) (imm : BitVec 16) : Word :=
  place imm 16 ||| place (rBits rs1) 12 ||| place op 0

/-- Format E (R94): `rk` 22:20, `ps2` 17:16, `ps1` 13:12, `pd` 9:8, the opcode 7:0. -/
def formatE (op : BitVec 8) (pd ps1 ps2 : PIdx) (rk : RIdx) : Word :=
  place (rBits rk) 20 ||| place (pBits ps2) 16 ||| place (pBits ps1) 12 ||| place (pBits pd) 8 ||| place op 0

/-- The row of a command (R97). -/
def Instr.op : Instr → Op
  | .nop => .nop
  | .modred _ _ _ => .modred
  | .modinv _ _ _ => .modinv
  | .modpow _ _ _ _ => .modpow
  | .mrround _ _ => .mrround
  | .isprime _ _ => .isprime
  | .econcurve _ => .econcurve
  | .ecneg _ _ => .ecneg
  | .ecdbl _ _ => .ecdbl
  | .ecadd _ _ _ => .ecadd
  | .ecsmul _ _ _ => .ecsmul

/-- The word of a well-formed command: fields of its format the row does not use are 0 (R95). A round count above
`maxRounds` has no encoding; the field keeps its low 16 bits (log 15). -/
def encode : Instr → Word
  | .nop => formatN Op.nop.opcode
  | .modred rd rs1 rs3 => formatM Op.modred.opcode rd rs1 0 rs3
  | .modinv rd rs1 rs3 => formatM Op.modinv.opcode rd rs1 0 rs3
  | .modpow rd rs1 rs2 rs3 => formatM Op.modpow.opcode rd rs1 rs2 rs3
  | .mrround rs1 rs2 => formatM Op.mrround.opcode 0 rs1 rs2 0
  | .isprime rs1 rounds => formatI Op.isprime.opcode rs1 (BitVec.ofNat 16 rounds)
  | .econcurve ps1 => formatE Op.econcurve.opcode 0 ps1 0 0
  | .ecneg pd ps1 => formatE Op.ecneg.opcode pd ps1 0 0
  | .ecdbl pd ps1 => formatE Op.ecdbl.opcode pd ps1 0 0
  | .ecadd pd ps1 ps2 => formatE Op.ecadd.opcode pd ps1 ps2 0
  | .ecsmul pd rk ps1 => formatE Op.ecsmul.opcode pd ps1 0 rk

/-- `R0`..`R7` (R101). -/
def rName (i : RIdx) : String := "R" ++ toString i.val

/-- `P0`..`P3` (R101). -/
def pName (j : PIdx) : String := "P" ++ toString j.val

/-- The operands of a command as the assembler writes them, in the order of R98 (R101). -/
def Instr.operandNames : Instr → List String
  | .nop => []
  | .modred rd rs1 rs3 => [rName rd, rName rs1, rName rs3]
  | .modinv rd rs1 rs3 => [rName rd, rName rs1, rName rs3]
  | .modpow rd rs1 rs2 rs3 => [rName rd, rName rs1, rName rs2, rName rs3]
  | .mrround rs1 rs2 => [rName rs1, rName rs2]
  | .isprime rs1 rounds => [rName rs1, toString rounds]
  | .econcurve ps1 => [pName ps1]
  | .ecneg pd ps1 => [pName pd, pName ps1]
  | .ecdbl pd ps1 => [pName pd, pName ps1]
  | .ecadd pd ps1 ps2 => [pName pd, pName ps1, pName ps2]
  | .ecsmul pd rk ps1 => [pName pd, rName rk, pName ps1]

/-- The assembler's line for a command (R101); one blank after the mnemonic and after each comma, the immediate in
decimal: DESIGN CHOICE (log 20), the rule fixes the order and the commas only. -/
def Instr.assembly (i : Instr) : String :=
  if i.operandNames.isEmpty then i.op.mnemonic
  else i.op.mnemonic ++ " " ++ String.intercalate ", " i.operandNames

end Sys2Proof
end

