-- ==== Sys2Proof/Machine/State.lean ====
section
/-! DEFINITION. The whole state (spec/10_state.md R43) with its reset values, the events of the execution order
(spec/20_memory.md R77), and the reasons a step can stop. -/

namespace Sys2Proof.Machine

/-- One event of the total order of R77. `engine` is the place of a Complete in that order; where the engine is idle
Complete is not enabled (R79) and the event changes nothing (log 11). -/
inductive Event where
  /-- A host read of the word at offset `4 * wa` (R63). -/
  | read (wa : WordAddr)
  /-- A host write of `d` to the word at offset `4 * wa` (R64). -/
  | write (wa : WordAddr) (d : Word)
  /-- The hard reset line `rst` (70_reset_and_hazards.md R270). -/
  | hardReset
  /-- The engine's turn: its Complete where it is enabled (R79). -/
  | engine
  /-- A byte, halfword or misaligned access a processor aims at the window (R70). -/
  | narrow
deriving DecidableEq, Repr

/-- The state of the engine, the tuple of R43, and below it the model's own four fields. -/
structure State where
  /-- The build, which fixes `W`. The model's own field: a parameter (00_scope.md R5), no step changes it (log 1). -/
  build : Config.Build
  /-- `R[0..7]` (R20). -/
  r : Vector (BitVec build.W) 8
  /-- `CA` (R22). -/
  ca : BitVec build.W
  /-- `CB` (R22). -/
  cb : BitVec build.W
  /-- `CP` (R22). -/
  cp : BitVec build.W
  /-- `PX[0..3]` (R24). -/
  px : Vector (BitVec build.W) 4
  /-- `PY[0..3]` (R24). -/
  py : Vector (BitVec build.W) 4
  /-- `PTAG[0..3]` (R24, R38). -/
  ptag : BitVec 4
  /-- `CTRL.IE` (R31). -/
  ie : Bool
  /-- `STATUS.BUSY` (R34). -/
  busy : Bool
  /-- `STATUS.DONE` (R34). -/
  done : Bool
  /-- `STATUS.T` (R33). -/
  t : Bool
  /-- `STATUS.OVR` (R35). -/
  ovr : Bool
  /-- `STATUS.ERR` (R36). -/
  err : BitVec 4
  /-- `CMD` (R37). -/
  cmd : Word
  /-- The model's own field: the events still to come, first first (log 2). -/
  schedule : List Event
  /-- The model's own field: the read-data word of the host port (20_memory.md R61), the last host read's (log 5). -/
  readData : Word
  /-- The model's own field: the index of the oracle's next draw (log 3). -/
  draws : Nat
deriving DecidableEq, Repr

/-- The engine never traps and never stops (60_exceptions.md R240): no fault exists, so no one raises one. Safe
(log 17). -/
inductive Fault where
deriving DecidableEq, Repr

/-- Why a step has no next state. -/
inductive Refusal where
  /-- Raised by `exec` for an instruction without a meaning. No arm raises it: every command has its meaning. Safe. -/
  | notModelled (mnemonic : String)
  /-- Raised by `performEvent` for a narrow access: "a model of the engine alone takes word accesses only and refuses
  anything else" (20_memory.md R70, `BRIDGE_NARROW`). Safe (log 8). -/
  | narrowAccess
deriving DecidableEq, Repr

/-- The state after reset of a given build: every piece of R43 at its reset value, and the model's own fields at the
values of log 2, log 3 and log 5. -/
def State.resetFor (b : Config.Build) : State where
  build := b
  r := Vector.replicate 8 0#b.W
  ca := 0#b.W
  cb := 0#b.W
  cp := 0#b.W
  px := Vector.replicate 4 0#b.W
  py := Vector.replicate 4 0#b.W
  ptag := 0
  ie := false
  busy := false
  done := false
  t := false
  ovr := false
  err := 0
  cmd := 0
  schedule := []
  readData := 0
  draws := 0

/-- The state after reset (R43, 70_reset_and_hazards.md R271), for the build with `W = 64` (log 1). -/
def State.reset : State := State.resetFor Config.referenceBuild

end Sys2Proof.Machine
end

