-- ==== Sys2Proof/Machine/Flags.lean ====
section
/-! DEFINITION. The fields of `STATUS`: the flag `T` (spec/10_state.md R33), the error codes (spec/60_exceptions.md
R241), the words of `STATUS`, `CTRL` and `PTAG` (R31, R32, R38), the line `irq` (R256). -/

namespace Sys2Proof.Machine

/-- The errors a Complete can end with (R241). -/
inductive Error where
  | nonInvertibleElement | invalidParameters | illegalCommand
deriving DecidableEq, Repr

/-- The code of an error in `STATUS.ERR` (R241). -/
def Error.code : Error → BitVec 4
  | .nonInvertibleElement => 1
  | .invalidParameters => 2
  | .illegalCommand => 3

/-- `T <- c` (R16, R33). -/
def State.setT (s : State) (c : Bool) : State := { s with t := c }

/-- A flag at a bit of a word. -/
def flagAt (b : Bool) (lo : Nat) : Word := place (BitVec.ofBool b) lo

/-- The word of `STATUS` (R32): `ERR` in 7:4, `OVR` 3, `T` 2, `DONE` 1, `BUSY` 0. -/
def State.statusWord (s : State) : Word :=
  place s.err 4 ||| flagAt s.ovr 3 ||| flagAt s.t 2 ||| flagAt s.done 1 ||| flagAt s.busy 0

/-- The word of `CTRL`: `IE` in bit 0, all else reads 0 (R31). -/
def State.ctrlWord (s : State) : Word := flagAt s.ie 0

/-- The word of `PTAG`: the four tags, all else reads 0 (R38). -/
def State.ptagWord (s : State) : Word := place s.ptag 0

/-- The level output `irq` (R256). -/
def State.irq (s : State) : Bool := s.done && s.ie

end Sys2Proof.Machine
end

