-- ==== Sys2Proof/Machine/Arith.lean ====
section
/-! DEFINITION. The exact integer arithmetic inside a command (spec/00_scope.md R10 to R14). -/

namespace Sys2Proof.Machine

/-- `emod(a, m)`, the floor modulus (R11). The rule defines it for `m >= 1`; no meaning calls it elsewhere (log 18). -/
def emod (a m : Int) : Int := a % m

/-- The loop of the extended Euclidean algorithm (R13): at most `fuel` passes, the last `(r0, t0)`. -/
def euclidLoop : Nat → Int → Int → Int → Int → Int × Int
  | 0, r0, _, t0, _ => (r0, t0)
  | fuel + 1, r0, r1, t0, t1 =>
    if r1 = 0 then (r0, t0)
    else euclidLoop fuel r1 (r0 - r0 / r1 * r1) t1 (t0 - r0 / r1 * t1)

/-- A number of passes that the loop of `inv` never uses up: each pass halves the product of the two remainders, so
that `2 * log2 m + 3` passes are enough. DEDUCED (log 10). -/
def euclidFuel (m : Int) : Nat := 2 * m.toNat.log2 + 3

/-- `inv(a, m)`, the modular inverse where it exists (R13). -/
def inv (a m : Int) : Option Int :=
  let rt := euclidLoop (euclidFuel m) m (emod a m) 0 1
  if rt.1 = 1 then some (emod rt.2 m) else none

/-- The loop of repeated squaring (R14): at most `fuel` passes, from the least significant bit of the exponent. -/
def modpowLoop (m : Int) : Nat → Int → Int → Nat → Int
  | 0, r, _, _ => r
  | fuel + 1, r, s, e =>
    if e = 0 then r
    else modpowLoop m fuel (if e % 2 = 1 then emod (r * s) m else r) (emod (s * s) m) (e / 2)

/-- `modpow(b, e, m)` (R14): one pass for each bit of the exponent. -/
def modpow (b : Int) (e : Nat) (m : Int) : Int :=
  modpowLoop m (e.log2 + 1) (emod 1 m) (emod b m) e

end Sys2Proof.Machine
end

