-- ==== Sys2Proof/Machine/Curve.lean ====
section
/-! DEFINITION. Points and the functions of the elliptic-curve commands (spec/00_scope.md R15, spec/42_ec_point.md
R160 to R165, spec/43_ec_scalar.md R190). -/

namespace Sys2Proof.Machine

/-- `Inf | Aff(x, y)` (R15). -/
inductive Point where
  | inf
  | aff (x y : Int)
deriving DecidableEq, Repr

/-- The coordinates of an affine point lie in `[0, p-1]`; `Inf` always passes (R160). -/
def pointInRange (p : Int) : Point → Bool
  | .inf => true
  | .aff x y => decide (0 ≤ x) && decide (x ≤ p - 1) && decide (0 ≤ y) && decide (y ≤ p - 1)

/-- `ec_check(Q1, ..)` passes (R160). -/
def ecCheck (p : Int) (qs : List Point) : Bool := decide (1 ≤ p) && qs.all (pointInRange p)

/-- `ec_neg(Q)` (R161). -/
def ecNeg (p : Int) : Point → Point
  | .inf => .inf
  | .aff x y => .aff x (emod (-y) p)

/-- `ec_on(Q)` (R162). -/
def ecOn (a b p : Int) : Point → Bool
  | .inf => true
  | .aff x y => emod (y * y - (x * x * x + a * x + b)) p == 0

/-- The point of slope `s` through `(x1, y1)` and a point with abscissa `x2`: the last two lines of R163 (with
`x2 = x1`) and of R165. -/
def chordPoint (p s x1 y1 x2 : Int) : Point :=
  let x3 := emod (s * s - x1 - x2) p
  .aff x3 (emod (s * (x1 - x3) - y1) p)

/-- `ec_dbl(Q)` (R163). -/
def ecDbl (a p : Int) : Point → Point
  | .inf => .inf
  | .aff x y =>
    match inv (2 * y) p with
    | none => .inf
    | some i => chordPoint p (emod ((3 * x * x + a) * i) p) x y x

/-- `ec_add(Q1, Q2)`, its cases in the order of R165. -/
def ecAdd (a p : Int) : Point → Point → Point
  | .inf, q2 => q2
  | .aff x1 y1, .inf => .aff x1 y1
  | .aff x1 y1, .aff x2 y2 =>
    if x1 = x2 ∧ y1 ≠ y2 then .inf
    else if x1 = x2 ∧ y1 = y2 then ecDbl a p (.aff x1 y1)
    else
      match inv (x2 - x1) p with
      | none => .inf
      | some i => chordPoint p (emod ((y2 - y1) * i) p) x1 y1 x2

/-- The loop of R190: at most `fuel` passes over the bits of `k`, least significant first. -/
def smulLoop (a p : Int) : Nat → Nat → Point → Point → Point
  | 0, _, acc, _ => acc
  | fuel + 1, k, acc, addend =>
    if k = 0 then acc
    else smulLoop a p fuel (k / 2) (if k % 2 = 1 then ecAdd a p acc addend else acc) (ecDbl a p addend)

/-- "while k > 0" of R190 from a given accumulator and addend: one pass for each bit of `k`. -/
def smulFrom (a p : Int) (k : Nat) (acc addend : Point) : Point := smulLoop a p (k.log2 + 1) k acc addend

/-- Step (3) of R190 for a scalar `k >= 0`: the accumulator starts at `Inf`, the addend at `Q`. -/
def doubleAndAdd (a p : Int) (k : Nat) (q : Point) : Point := smulFrom a p k .inf q

/-- `ec_smul(k, Q)` (R190), with the shortcut on the field modulus (R191). -/
def ecSmul (a p k : Int) (q : Point) : Point :=
  if emod k p = 0 ∨ q = .inf then .inf
  else if k < 0 then doubleAndAdd a p (-k).toNat (ecNeg p q)
  else doubleAndAdd a p k.toNat q

end Sys2Proof.Machine
end

