-- ==== Sys2Proof/Machine/Operands.lean ====
section
/-! DEFINITION. Operand forms: integers in registers (spec/00_scope.md R9, R16), wide registers and their limbs
(spec/20_memory.md R67, R68), point registers (spec/10_state.md R24 to R26), curve registers (R22). -/

namespace Sys2Proof.Machine

/-- `sint(v)`, the integer in two's complement (R9). -/
def sint {w : Nat} (v : BitVec w) : Int := v.toInt

/-- `enc(n)`, the pattern with `sint(enc(n)) = n` for `n` in range (R9); outside the range the low bits, which no
rule uses (log 18). -/
def enc (w : Nat) (n : Int) : BitVec w := BitVec.ofInt w n

/-- The integer lies in the range of a `w`-bit register (R9). -/
def fits (w : Nat) (n : Int) : Bool := decide (-(2 ^ (w - 1)) ≤ n) && decide (n ≤ 2 ^ (w - 1) - 1)

/-- Limb `k` of a wide register, `V[32k+31 : 32k]` (R67). -/
def readLimb {w : Nat} (v : BitVec w) (k : Nat) : Word := v.extractLsb' (32 * k) 32

/-- `V[32k+31 : 32k] <- d`, the other limbs as they were (R68). -/
def writeLimb {w : Nat} (v : BitVec w) (k : Nat) (d : Word) : BitVec w :=
  v &&& ~~~((BitVec.allOnes 32).setWidth w <<< (32 * k)) ||| d.setWidth w <<< (32 * k)

/-- The nineteen `W`-bit registers (R43). -/
inductive WideReg where
  | r (i : RIdx)
  | ca | cb | cp
  | px (j : PIdx)
  | py (j : PIdx)
deriving DecidableEq, Repr

/-- The contents of a wide register. -/
def State.wide (s : State) : WideReg → BitVec s.build.W
  | .r i => s.r[i.val]
  | .ca => s.ca
  | .cb => s.cb
  | .cp => s.cp
  | .px j => s.px[j.val]
  | .py j => s.py[j.val]

/-- A wide register takes a value; all else stays. -/
def State.setWide (s : State) (v : WideReg) (x : BitVec s.build.W) : State :=
  { s with
    r := match v with
      | .r i => s.r.set i.val x
      | _ => s.r
    ca := if v = .ca then x else s.ca
    cb := if v = .cb then x else s.cb
    cp := if v = .cp then x else s.cp
    px := match v with
      | .px j => s.px.set j.val x
      | _ => s.px
    py := match v with
      | .py j => s.py.set j.val x
      | _ => s.py }

/-- The integer a wide register holds. -/
def State.int (s : State) (v : WideReg) : Int := sint (s.wide v)

/-- A wide register takes the pattern of an integer. -/
def State.setInt (s : State) (v : WideReg) (n : Int) : State := s.setWide v (enc s.build.W n)

/-- `x[i]` (R16). -/
def State.x (s : State) (i : RIdx) : Int := s.int (.r i)

/-- `x[i] <- v` (R16). -/
def State.setX (s : State) (i : RIdx) (v : Int) : State := s.setInt (.r i) v

/-- `a = sint(CA)` (R15, R22). -/
def State.curveA (s : State) : Int := s.int .ca

/-- `b = sint(CB)` (R15, R22). -/
def State.curveB (s : State) : Int := s.int .cb

/-- `p = sint(CP)` (R15, R22). -/
def State.curveP (s : State) : Int := s.int .cp

/-- `PTAG[j]`, the infinity tag of `Pj` (R24, R38). -/
def State.tag (s : State) (j : PIdx) : Bool := s.ptag.getLsbD j.val

/-- `PTAG[j] <- b`, the other tags as they were. -/
def State.setTag (s : State) (j : PIdx) (b : Bool) : State :=
  { s with ptag := s.ptag &&& ~~~(1#4 <<< j.val) ||| (BitVec.ofBool b).setWidth 4 <<< j.val }

/-- `pt[j]` (R25). -/
def State.pt (s : State) (j : PIdx) : Point :=
  if s.tag j then .inf else .aff (s.int (.px j)) (s.int (.py j))

/-- The tag and the two coordinates a point register takes for `Q` (R26): `Inf` has zero coordinates. -/
def pointImage (w : Nat) : Point → Bool × BitVec w × BitVec w
  | .inf => (true, 0, 0)
  | .aff x y => (false, enc w x, enc w y)

/-- `pt[j] <- Q` (R26): tag and both coordinates in one step. -/
def State.setPt (s : State) (j : PIdx) (q : Point) : State :=
  { s.setTag j (pointImage s.build.W q).1 with
    px := s.px.set j.val (pointImage s.build.W q).2.1
    py := s.py.set j.val (pointImage s.build.W q).2.2 }

end Sys2Proof.Machine
end

