-- ==== Sys2Proof/Machine/Ops.lean ====
section
/-! DEFINITION. The shared operations: how a command ends, with a result or with an error (spec/60_exceptions.md R244,
spec/20_memory.md R79), the accept (spec/10_state.md R37), the reset (spec/70_reset_and_hazards.md R271) and the
register window (spec/20_memory.md R63 to R66, R81). -/

namespace Sys2Proof.Machine

/-! How a Complete ends. -/

/-- What every Complete writes last: `ERR`, `BUSY <- 0`, `DONE <- 1` (R79). -/
def State.finish (s : State) (code : BitVec 4) : State := { s with err := code, busy := false, done := true }

/-- The end of a command that produced its result: `ERR = 0` (R241). -/
def State.succeed (s : State) : State := s.finish 0

/-- `raise <Error>`, the taking of an error: the code, `BUSY <- 0`, `DONE <- 1`, and nothing else (R16, R244). -/
def State.raise (s : State) (e : Error) : State := s.finish e.code

/-- The accept of the word `d` (R37). It also is the only return from an error: it clears `ERR` (60_exceptions.md
R245). -/
def State.accept (s : State) (d : Word) : State := { s with cmd := d, busy := true, done := false, err := 0 }

/-- A reset, hard or soft (70_reset_and_hazards.md R270, R271): the whole tuple of R43 takes its reset values. The
model's own fields stay: the build, the events to come, the read-data word, the draws already taken (log 3, log 5). -/
def State.resetEngine (s : State) : State :=
  { State.resetFor s.build with schedule := s.schedule, readData := s.readData, draws := s.draws }

/-- The word a host read returns stands on the read-data port (20_memory.md R61, log 5). -/
def State.answerRead (s : State) (w : Word) : State := { s with readData := w }

/-- The events still to come (log 2). -/
def State.setSchedule (s : State) (es : List Event) : State := { s with schedule := es }

/-- The index of the oracle's next draw (log 3). -/
def State.setDraws (s : State) (k : Nat) : State := { s with draws := k }

/-! The register window. -/

/-- What stands at a word of the window (R65). -/
inductive WindowReg where
  | id | config | ctrl | status | cmd | ptag
  | limb (v : WideReg) (k : Nat)
  | reserved
deriving DecidableEq, Repr

/-- The wide register that owns a slot of 128 words (R65): slots 8 to 15 are `R0..R7`, 16 to 18 the curve, 24 to 31 the
points, `X` at the even and `Y` at the odd slot of each. -/
def slotOwner (slot : Nat) : Option WideReg :=
  if 8 ≤ slot ∧ slot < 16 then some (.r (Fin.ofNat 8 (slot - 8)))
  else if slot = 16 then some .ca
  else if slot = 17 then some .cb
  else if slot = 18 then some .cp
  else if 24 ≤ slot ∧ slot < 32 then
    if slot % 2 = 0 then some (.px (Fin.ofNat 4 ((slot - 24) / 2))) else some (.py (Fin.ofNat 4 ((slot - 24) / 2)))
  else none

/-- The address map (R65), with the reserved words of R66: the two reserved ranges, and the words of a slot with
`k >= LIMBS`. -/
def windowReg (limbs : Nat) (wa : WordAddr) : WindowReg :=
  match wa.toNat with
  | 0 => .id
  | 1 => .config
  | 2 => .ctrl
  | 3 => .status
  | 4 => .cmd
  | 5 => .ptag
  | n =>
    match slotOwner (n / 128) with
    | none => .reserved
    | some v => if n % 128 < limbs then .limb v (n % 128) else .reserved

/-- What stands at a word of the window of this build. -/
def State.windowAt (s : State) (wa : WordAddr) : WindowReg := windowReg s.build.limbs wa

/-- The host's byte address of a word of the window, `BASE + off` (R62). -/
def hostAddress (wa : WordAddr) : Nat := Config.base + 4 * wa.toNat

/-- The constant `ID` (10_state.md R29). -/
def idWord : Word := 0x4D454501

/-- The constant `CONFIG` of a build (10_state.md R30): `NP = 4` in 23:20, `NR = 8` in 19:16, `LIMBS` in 15:0. -/
def configWord (limbs : Nat) : Word := place 4#4 20 ||| place 8#4 16 ||| place (BitVec.ofNat 16 limbs) 0

/-- `BusRead(off)` (R63, R65, R66). -/
def State.busRead (s : State) (wa : WordAddr) : Word :=
  match s.windowAt wa with
  | .id => idWord
  | .config => configWord s.build.limbs
  | .ctrl => s.ctrlWord
  | .status => s.statusWord
  | .cmd => s.cmd
  | .ptag => s.ptagWord
  | .limb v k => readLimb (s.wide v) k
  | .reserved => 0

/-- `CTRL.IE <- b` (10_state.md R31). -/
def State.setIe (s : State) (b : Bool) : State := { s with ie := b }

/-- A write to `CTRL` (10_state.md R31): with bit 1 set a soft reset and nothing else, otherwise `IE <- d[0]`. -/
def State.writeCtrl (s : State) (d : Word) : State :=
  if d.getLsbD 1 then s.resetEngine else s.setIe (d.getLsbD 0)

/-- A write to `STATUS` (10_state.md R32): ones in bits 1 and 3 clear `DONE` and `OVR`. -/
def State.writeStatus (s : State) (d : Word) : State :=
  { s with done := s.done && !d.getLsbD 1, ovr := s.ovr && !d.getLsbD 3 }

/-- A write to `PTAG` (10_state.md R38): all four tags at once, the other bits ignored. -/
def State.writePtag (s : State) (d : Word) : State := { s with ptag := d.extractLsb' 0 4 }

/-- `OVR <- 1`: a host write was dropped (10_state.md R35). -/
def State.overrun (s : State) : State := { s with ovr := true }

/-- A write the busy rule guards: while `BUSY = 1` it is dropped and sets `OVR` (R81). -/
def State.guarded (s s' : State) : State := if s.busy then s.overrun else s'

/-- A write of `d` to limb `k` of a wide register (R68). -/
def State.writeWide (s : State) (v : WideReg) (k : Nat) (d : Word) : State :=
  s.setWide v (writeLimb (s.wide v) k d)

/-- `BusWrite(off, d)` (R64, R65, R66, R81). -/
def State.busWrite (s : State) (wa : WordAddr) (d : Word) : State :=
  match s.windowAt wa with
  | .id => s
  | .config => s
  | .ctrl => s.writeCtrl d
  | .status => s.writeStatus d
  | .cmd => s.guarded (s.accept d)
  | .ptag => s.guarded (s.writePtag d)
  | .limb v k => s.guarded (s.writeWide v k d)
  | .reserved => s

/-- The accept that puts a command where the engine takes its next one, with no event before it (log 6). -/
def State.placeCommand (s : State) (w : Word) : State := (s.accept w).setSchedule []

end Sys2Proof.Machine
end

