-- ==== Sys2Proof/Machine/EcPoint.lean ====
section
/-! DEFINITION. The elliptic-curve point commands (spec/42_ec_point.md R167 to R170). -/

namespace Sys2Proof.Machine

/-- The check every EC command makes of the points it reads, before anything else (R160), and what it does then. -/
def State.ecChecked (s : State) (qs : List Point) (s' : State) : Host.Outcome State Fault Refusal :=
  if ecCheck s.curveP qs then .next s'.succeed else .next (s.raise .invalidParameters)

/-- ECONCURVE (R167). -/
def execEconcurve (ps1 : PIdx) (s : State) : Host.Outcome State Fault Refusal :=
  s.ecChecked [s.pt ps1] (s.setT (ecOn s.curveA s.curveB s.curveP (s.pt ps1)))

/-- ECNEG (R168). -/
def execEcneg (pd ps1 : PIdx) (s : State) : Host.Outcome State Fault Refusal :=
  s.ecChecked [s.pt ps1] (s.setPt pd (ecNeg s.curveP (s.pt ps1)))

/-- ECDBL (R169). -/
def execEcdbl (pd ps1 : PIdx) (s : State) : Host.Outcome State Fault Refusal :=
  s.ecChecked [s.pt ps1] (s.setPt pd (ecDbl s.curveA s.curveP (s.pt ps1)))

/-- ECADD (R170). -/
def execEcadd (pd ps1 ps2 : PIdx) (s : State) : Host.Outcome State Fault Refusal :=
  s.ecChecked [s.pt ps1, s.pt ps2] (s.setPt pd (ecAdd s.curveA s.curveP (s.pt ps1) (s.pt ps2)))

end Sys2Proof.Machine
end

