-- ==== Sys2Proof/Machine/EcScalar.lean ====
section
/-! DEFINITION. Scalar multiplication (spec/43_ec_scalar.md R192). -/

namespace Sys2Proof.Machine

/-- ECSMUL (R192): `ec_smul(x[rk], pt[ps1])`. -/
def execEcsmul (pd : PIdx) (rk : RIdx) (ps1 : PIdx) (s : State) : Host.Outcome State Fault Refusal :=
  s.ecChecked [s.pt ps1] (s.setPt pd (ecSmul s.curveA s.curveP (s.x rk) (s.pt ps1)))

end Sys2Proof.Machine
end

