-- ==== Sys2Proof/Machine/Modular.lean ====
section
/-! DEFINITION. The modular arithmetic commands (spec/40_modular.md). -/

namespace Sys2Proof.Machine

/-- MODRED (R124): `emod(x[rs1], x[rs3])`. -/
def execModred (rd rs1 rs3 : RIdx) (s : State) : Host.Outcome State Fault Refusal :=
  if s.x rs3 < 1 then .next (s.raise .invalidParameters)
  else .next (s.setX rd (emod (s.x rs1) (s.x rs3))).succeed

/-- MODINV (R128): the inverse of `x[rs1]` modulo `x[rs3]`; the modulus is tested first. -/
def execModinv (rd rs1 rs3 : RIdx) (s : State) : Host.Outcome State Fault Refusal :=
  if s.x rs3 < 1 then .next (s.raise .invalidParameters)
  else
    match inv (s.x rs1) (s.x rs3) with
    | none => .next (s.raise .nonInvertibleElement)
    | some v => .next (s.setX rd v).succeed

/-- MODPOW (R133): `modpow(x[rs1], x[rs2], x[rs3])`. -/
def execModpow (rd rs1 rs2 rs3 : RIdx) (s : State) : Host.Outcome State Fault Refusal :=
  if s.x rs3 < 1 ∨ s.x rs2 < 0 then .next (s.raise .invalidParameters)
  else .next (s.setX rd (modpow (s.x rs1) (s.x rs2).toNat (s.x rs3))).succeed

end Sys2Proof.Machine
end

