-- ==== Sys2Proof/Machine/Primes.lean ====
section
/-! DEFINITION. The functions of the primality commands (spec/41_primality.md R140 to R142, R145, R146) and the draw
from the randomness source (spec/10_state.md R41). -/

namespace Sys2Proof.Machine

/-- `SP`, the small-prime set (R140). -/
def smallPrimes : List Int := [2, 3, 5, 7, 11, 13, 17, 19, 23, 29]

/-- The loop of `split`: halve `d` and count while `d` is even, at most `fuel` times. -/
def splitLoop : Nat → Nat → Nat → Nat × Nat
  | 0, d, s => (d, s)
  | fuel + 1, d, s => if d % 2 = 0 then splitLoop fuel (d / 2) (s + 1) else (d, s)

/-- `split(n)`: `n - 1 = d * 2^s` with `d` odd (R141), for an odd `n >= 3`. -/
def split (n : Int) : Nat × Nat :=
  splitLoop ((n - 1).toNat.log2 + 1) (n - 1).toNat 0

/-- At most `k` squarings of `x` modulo `n`, true when one of them gives `n - 1` (R142). -/
def squaringsHit (n : Int) : Nat → Int → Bool
  | 0, _ => false
  | k + 1, x => if emod (x * x) n = n - 1 then true else squaringsHit n k (emod (x * x) n)

/-- `mr_round(n, a)` (R142). -/
def mrRound (n a : Int) : Bool :=
  let x := modpow a (split n).1 n
  if x = 1 ∨ x = n - 1 then true else squaringsHit n ((split n).2 - 1) x

/-- The answers of trial division (R145). -/
inductive Trial where
  | prime | composite | undecided
deriving DecidableEq, Repr

/-- Trial division by the members of a list, in order (R145). -/
def trialBy (n : Int) : List Int → Trial
  | [] => .undecided
  | q :: qs => if n = q then .prime else if emod n q = 0 then .composite else trialBy n qs

/-- `trial(n)` (R145). -/
def trial (n : Int) : Trial := if n < 2 then .composite else trialBy n smallPrimes

/-- `draw(lo, hi)` for the word `w` of the source: an integer of `[lo, hi]`, and every one of them for some `w`. How
the words of `rng` become an integer of the range is not architectural (R148). DESIGN CHOICE, safe (log 4). -/
def draw (w : Nat) (lo hi : Int) : Int := lo + (w : Int) % (hi - lo + 1)

/-- "repeat rounds times, while r" (R146) over the words of a source from index `k` on: whether every round passes, and
the index of the first word not used. It stops at the first failing round, which nothing observes (log 7). -/
def primeRounds (rng : Nat → Nat) (n : Int) : Nat → Nat → Bool × Nat
  | 0, k => (true, k)
  | rounds + 1, k =>
    if mrRound n (draw (rng k) 2 (n - 2)) then primeRounds rng n rounds (k + 1) else (false, k + 1)

/-- The result of ISPRIME for a source of randomness, and the index of the next word (R146). -/
def isProbablyPrime (rng : Nat → Nat) (n : Int) (rounds k : Nat) : Bool × Nat :=
  match trial n with
  | .prime => (true, k)
  | .composite => (false, k)
  | .undecided => primeRounds rng n rounds k

end Sys2Proof.Machine
end

