-- ==== Sys2Proof/Machine/Primality.lean ====
section
/-! DEFINITION. The primality commands (spec/41_primality.md R143, R146). -/

namespace Sys2Proof.Machine

/-- MRROUND (R143): one round with the witness of a register. -/
def execMrround (rs1 rs2 : RIdx) (s : State) : Host.Outcome State Fault Refusal :=
  if s.x rs1 < 5 ∨ emod (s.x rs1) 2 = 0 ∨ s.x rs2 < 2 ∨ s.x rs2 > s.x rs1 - 2 then
    .next (s.raise .invalidParameters)
  else .next (s.setT (mrRound (s.x rs1) (s.x rs2))).succeed

/-- ISPRIME (R146): trial division, then `rounds` rounds with drawn witnesses. The draws are the words of the oracle
`Config.rng` from index `s.draws` on: free values (log 3). -/
def execIsprime (rs1 : RIdx) (rounds : Nat) (s : State) : Host.Outcome State Fault Refusal :=
  let result := isProbablyPrime Config.rng (s.x rs1) rounds s.draws
  .next ((s.setDraws result.2).setT result.1).succeed

end Sys2Proof.Machine
end

