-- ==== Sys2Proof/Machine/System.lean ====
section
/-! DEFINITION. The system command (spec/44_system.md). -/

namespace Sys2Proof.Machine

/-- NOP: nothing, and the completion every command has (R200). -/
def execNop (s : State) : Host.Outcome State Fault Refusal := .next s.succeed

end Sys2Proof.Machine
end

