-- ==== Sys2Proof/Machine/Dispatch.lean ====
section
/-! DEFINITION. The dispatch of a decoded command to its meaning: the Complete of that command (spec/20_memory.md R79).
It does not test `BUSY`: whoever calls it does (log 13). -/

namespace Sys2Proof.Machine

def exec (i : Instr) (s : State) : Host.Outcome State Fault Refusal :=
  match i with
  | .nop => Sys2Proof.Machine.execNop s
  | .modred rd rs1 rs3 => Sys2Proof.Machine.execModred rd rs1 rs3 s
  | .modinv rd rs1 rs3 => Sys2Proof.Machine.execModinv rd rs1 rs3 s
  | .modpow rd rs1 rs2 rs3 => Sys2Proof.Machine.execModpow rd rs1 rs2 rs3 s
  | .mrround rs1 rs2 => Sys2Proof.Machine.execMrround rs1 rs2 s
  | .isprime rs1 rounds => Sys2Proof.Machine.execIsprime rs1 rounds s
  | .econcurve ps1 => Sys2Proof.Machine.execEconcurve ps1 s
  | .ecneg pd ps1 => Sys2Proof.Machine.execEcneg pd ps1 s
  | .ecdbl pd ps1 => Sys2Proof.Machine.execEcdbl pd ps1 s
  | .ecadd pd ps1 ps2 => Sys2Proof.Machine.execEcadd pd ps1 ps2 s
  | .ecsmul pd rk ps1 => Sys2Proof.Machine.execEcsmul pd rk ps1 s

end Sys2Proof.Machine
end

