-- ==== Sys2Proof/Machine/Events.lean ====
section
/-! DEFINITION. The events of the execution order (spec/20_memory.md R77, R79; spec/70_reset_and_hazards.md R270). -/

namespace Sys2Proof.Machine

/-- Complete (R79): decode `CMD` and perform the command; a word that matches no row ends with IllegalCommand
(30_encoding.md R99, 60_exceptions.md R243). -/
def complete (s : State) : Host.Outcome State Fault Refusal :=
  match decode s.cmd with
  | .command i => exec i s
  | .illegalCommand => .next (s.raise .illegalCommand)

/-- The engine's turn: Complete where it is enabled, that is exactly when `BUSY = 1` (R79); an idle engine does nothing
(60_exceptions.md R263). -/
def engineTurn (s : State) : Host.Outcome State Fault Refusal := if s.busy then complete s else .next s

/-- One event of the order of R77. -/
def performEvent (e : Event) (s : State) : Host.Outcome State Fault Refusal :=
  match e with
  | .read wa => .next (s.answerRead (s.busRead wa))
  | .write wa d => .next (s.busWrite wa d)
  | .hardReset => .next s.resetEngine
  | .engine => engineTurn s
  | .narrow => .refused .narrowAccess

/-- The next event: the first of the schedule; where the schedule is empty it is the engine's turn, since an accepted
command is completed in the end (R79, log 2). -/
def nextEvent (s : State) : Host.Outcome State Fault Refusal :=
  match s.schedule with
  | [] => engineTurn s
  | e :: rest => performEvent e (s.setSchedule rest)

end Sys2Proof.Machine
end

