-- ==== Sys2Proof/Machine/Step.lean ====
section
/-! DEFINITION. The step of the machine: one event of the total order (spec/20_memory.md R77). -/

namespace Sys2Proof.Machine

/-- One step is one event (R77). -/
def step (s : State) : Host.Outcome State Fault Refusal := nextEvent s

/-- The state with a command of the opcode table accepted, so that the next step is its Complete (log 6). -/
def State.withFetchWord (s : State) (nbits w : Nat) : State := s.placeCommand (BitVec.ofNat 32 (w % 2 ^ nbits))

end Sys2Proof.Machine
end

