-- ==== Sys2Proof/Machine/HostSequences.lean ====
section
/-! DEFINITION. The host's macros (spec/30_encoding.md R102) and the sequences of commands the host issues (spec/45_host_sequences.md
R210 to R230): the ECC protocol layer, the RSA module, point enumeration. Each is a function of the state made of
host reads, host writes and Completes only. The host's own draws are arguments (R210, log 14). -/

namespace Sys2Proof.Machine

/-! Macros (R102). -/

/-- The slot of a wide register in the window, the inverse of `slotOwner` (20_memory.md R65). -/
def slotOf : WideReg → Nat
  | .r i => 8 + i.val
  | .ca => 16
  | .cb => 17
  | .cp => 18
  | .px j => 24 + 2 * j.val
  | .py j => 25 + 2 * j.val

/-- The word address of limb `k` of a wide register (20_memory.md R65). -/
def limbAddr (v : WideReg) (k : Nat) : WordAddr := BitVec.ofNat 12 (128 * slotOf v + k)

/-- The word address of `STATUS`, byte offset 0x000C. -/
def statusAddr : WordAddr := 3

/-- The word address of `CMD`, byte offset 0x0010. -/
def cmdAddr : WordAddr := 4

/-- The word address of `PTAG`, byte offset 0x0014. -/
def ptagAddr : WordAddr := 5

/-- `LOAD V, n`: every limb of `enc(n)` is written, limb 0 first. -/
def State.loadWide (s : State) (v : WideReg) (n : Int) : State :=
  (List.range s.build.limbs).foldl
    (fun s' k => s'.busWrite (limbAddr v k) (readLimb (enc s.build.W n) k)) s

/-- `READ V`: every limb is read, assembled and read through `sint`. -/
def State.readWide (s : State) (v : WideReg) : Int :=
  sint ((List.range s.build.limbs).foldl
    (fun acc k => writeLimb acc k (s.busRead (limbAddr v k))) (0#s.build.W))

/-- `LOADP Pj, Q`: the coordinates of an affine point, then `PTAG` read, changed in one bit and written back. -/
def State.loadPoint (s : State) (j : PIdx) : Point → State
  | .inf => s.busWrite ptagAddr (s.busRead ptagAddr ||| 1#32 <<< j.val)
  | .aff x y =>
    let s' := (s.loadWide (.px j) x).loadWide (.py j) y
    s'.busWrite ptagAddr (s'.busRead ptagAddr &&& ~~~(1#32 <<< j.val))

/-- `READP Pj`: the tag, and the coordinates of an affine point. -/
def State.readPoint (s : State) (j : PIdx) : Point :=
  if (s.busRead ptagAddr).getLsbD j.val then .inf else .aff (s.readWide (.px j)) (s.readWide (.py j))

/-! Sequences. -/

/-- How a sequence fails, the structured error the host answers with (R211, R221, R232): malformed input, retries used
up, or a command that ended with an error. -/
inductive SeqFailure where
  | invalidParameters
  | keyGenerationFailure
  | engineError (code : BitVec 4)
deriving DecidableEq, Repr

/-- A sequence: from a state to the state it leaves and its result. -/
abbrev HostSeq (α : Type) := State → Host.Outcome (State × Except SeqFailure α) Fault Refusal

/-- A sequence that does nothing and answers `a`. -/
def seqReturn {α : Type} (a : α) : HostSeq α := fun s => .next (s, .ok a)

/-- A sequence that does nothing and fails. -/
def seqFail {α : Type} (f : SeqFailure) : HostSeq α := fun s => .next (s, .error f)

/-- One sequence, then a second that depends on its result; a failure ends both. -/
def seqThen {α β : Type} (m : HostSeq α) (f : α → HostSeq β) : HostSeq β := fun s =>
  match m s with
  | .next (s', .ok a) => f a s'
  | .next (s', .error e) => .next (s', .error e)
  | .fault r => .fault r
  | .refused r => .refused r

/-- The integers a point brings into registers. -/
def Point.coordinates : Point → List Int
  | .inf => []
  | .aff x y => [x, y]

/-- The host looks at every integer and every point its caller gave before it loads anything: where one does not fit
the register range the sequence is InvalidParameters, "never partially processed" (R211, R232). -/
def seqOperands {α : Type} (ns : List Int) (qs : List Point) (m : HostSeq α) : HostSeq α := fun s =>
  if (ns ++ qs.flatMap Point.coordinates).all (fits s.build.W) then m s else seqFail .invalidParameters s

/-- `LOAD V, n`. The caller's values have passed `seqOperands`; a value the host computed itself is kept inside the
register range here (R211). -/
def seqLoad (v : WideReg) (n : Int) : HostSeq Unit := fun s =>
  if fits s.build.W n then .next (s.loadWide v n, .ok ()) else .next (s, .error .invalidParameters)

/-- `LOADP Pj, Q`, with the same care (R211). -/
def seqLoadPoint (j : PIdx) (q : Point) : HostSeq Unit := fun s =>
  match q with
  | .inf => .next (s.loadPoint j .inf, .ok ())
  | .aff x y =>
    if fits s.build.W x && fits s.build.W y then .next (s.loadPoint j (.aff x y), .ok ())
    else .next (s, .error .invalidParameters)

/-- `READ V`. -/
def seqRead (v : WideReg) : HostSeq Int := fun s => .next (s, .ok (s.readWide v))

/-- `READP Pj`. The answer `Inf` is the sentinel of R232, told from the tag bit. -/
def seqReadPoint (j : PIdx) : HostSeq Point := fun s => .next (s, .ok (s.readPoint j))

/-- A command line: the write of its word to `CMD`, the Complete, and the `STATUS` word with `DONE` (R102). The polls
made before the Complete read a word and change nothing (20_memory.md R63), so they are left out. -/
def seqCommand (i : Instr) : HostSeq Word := fun s =>
  match engineTurn (s.busWrite cmdAddr (encode i)) with
  | .next s' => .next (s', .ok (s'.busRead statusAddr))
  | .fault r => .fault r
  | .refused r => .refused r

/-- A command line whose error ends the sequence (R232). -/
def seqRun (i : Instr) : HostSeq Word :=
  seqThen (seqCommand i) fun status =>
    if status.extractLsb' 4 4 = 0 then seqReturn status else seqFail (.engineError (status.extractLsb' 4 4))

/-- The curve triple `(a, b, p)` (00_scope.md R15). -/
structure CurveParams where
  a : Int
  b : Int
  p : Int
deriving DecidableEq, Repr

/-- The integers of a curve. -/
def CurveParams.coefficients (c : CurveParams) : List Int := [c.a, c.b, c.p]

/-- `CURVE a, b, p` (30_encoding.md R102). -/
def seqCurve (c : CurveParams) : HostSeq Unit :=
  seqThen (seqLoad .ca c.a) fun _ => seqThen (seqLoad .cb c.b) fun _ => seqLoad .cp c.p

/-- The host's draw `d` lies in `[1, n-1]`; an empty range is rejected (R211, R212). -/
def drawnBelow (n d : Int) : Bool := decide (2 ≤ n) && decide (1 ≤ d) && decide (d ≤ n - 1)

/-! The ECC protocol layer. -/

/-- `ecc_generate_keypair(curve, G, n)` with the drawn private key `d` (R212): the public key and `d`. -/
def eccGenerateKeypair (c : CurveParams) (g : Point) (n d : Int) : HostSeq (Point × Int) :=
  if drawnBelow n d then
    seqOperands (d :: c.coefficients) [g] <|
    seqThen (seqCurve c) fun _ =>
    seqThen (seqLoad (.r 0) d) fun _ =>
    seqThen (seqLoadPoint 0 g) fun _ =>
    seqThen (seqRun (.ecsmul 1 0 0)) fun _ =>
    seqThen (seqReadPoint 1) fun publicKey => seqReturn (publicKey, d)
  else seqFail .invalidParameters

/-- `ecc_encrypt_point(curve, G, n, publicKey, M)` with the drawn ephemeral `k` (R214): the pair `(C1, C2)`. -/
def eccEncryptPoint (c : CurveParams) (g : Point) (n : Int) (publicKey m : Point) (k : Int) : HostSeq (Point × Point) :=
  if drawnBelow n k then
    seqOperands (k :: c.coefficients) [g, publicKey, m] <|
    seqThen (seqCurve c) fun _ =>
    seqThen (seqLoad (.r 0) k) fun _ =>
    seqThen (seqLoadPoint 0 g) fun _ =>
    seqThen (seqLoadPoint 1 publicKey) fun _ =>
    seqThen (seqLoadPoint 2 m) fun _ =>
    seqThen (seqRun (.ecsmul 3 0 0)) fun _ =>
    seqThen (seqReadPoint 3) fun c1 =>
    seqThen (seqRun (.ecsmul 3 0 1)) fun _ =>
    seqThen (seqRun (.ecadd 3 3 2)) fun _ =>
    seqThen (seqReadPoint 3) fun c2 => seqReturn (c1, c2)
  else seqFail .invalidParameters

/-- The message encoding of variant (b): `m` to `(m, (m^3 + b) mod p)` (R215). -/
def encodeMessage (c : CurveParams) (m : Int) : Point := .aff m (emod (m * m * m + c.b) c.p)

/-- `ecc_encrypt_scalar(curve, G, n, publicKey, m)` (R215). The encoding is the host's arithmetic modulo `p`, so the
host rejects `p < 1`, for which it has no value (00_scope.md R11). -/
def eccEncryptScalar (c : CurveParams) (g : Point) (n : Int) (publicKey : Point) (m k : Int) : HostSeq (Point × Point) :=
  if c.p < 1 then seqFail .invalidParameters else eccEncryptPoint c g n publicKey (encodeMessage c m) k

/-- `ecc_decrypt(curve, privateKey, C1, C2)` (R216). The result `Inf` is DecryptionYieldsInfinity, a value. -/
def eccDecrypt (c : CurveParams) (privateKey : Int) (c1 c2 : Point) : HostSeq Point :=
  seqOperands (privateKey :: c.coefficients) [c1, c2] <|
  seqThen (seqCurve c) fun _ =>
  seqThen (seqLoad (.r 0) privateKey) fun _ =>
  seqThen (seqLoadPoint 0 c1) fun _ =>
  seqThen (seqLoadPoint 1 c2) fun _ =>
  seqThen (seqRun (.ecsmul 2 0 0)) fun _ =>
  seqThen (seqRun (.ecneg 2 2)) fun _ =>
  seqThen (seqRun (.ecadd 3 1 2)) fun _ => seqReadPoint 3

/-! The RSA module. -/

/-- The loop of `rsa_generate_prime` (R220): at most `tries` candidates, drawn with the host's words from index `k` on;
the prime and the index of the next word. -/
def primeSearch (hrng : Nat → Nat) (keygenRounds bits : Nat) : Nat → Nat → HostSeq (Int × Nat)
  | 0, _ => seqFail .keyGenerationFailure
  | tries + 1, k =>
    if draw (hrng k) 0 (2 ^ bits - 1) < 2 then primeSearch hrng keygenRounds bits tries (k + 1)
    else
      seqThen (seqLoad (.r 0) (draw (hrng k) 0 (2 ^ bits - 1))) fun _ =>
      seqThen (seqRun (.isprime 0 keygenRounds)) fun status =>
        if status.getLsbD 2 then seqReturn (draw (hrng k) 0 (2 ^ bits - 1), k + 1)
        else primeSearch hrng keygenRounds bits tries (k + 1)

/-- `rsa_generate_prime(bits)` (R220), with the parameters `MAX_TRIES` and `KEYGEN_ROUNDS` (R221); a round count that no
ISPRIME word can carry is rejected (00_scope.md R7, log 14). -/
def rsaGeneratePrime (hrng : Nat → Nat) (maxTries keygenRounds bits k : Nat) : HostSeq (Int × Nat) := fun s =>
  if 1 ≤ bits ∧ bits ≤ s.build.W - 1 ∧ keygenRounds ≤ Config.maxRounds then
    primeSearch hrng keygenRounds bits maxTries k s
  else seqFail .invalidParameters s

/-- An RSA keypair: `(e, n)` and `(d, n)` (R222). -/
structure RsaKeypair where
  e : Int
  d : Int
  n : Int
deriving DecidableEq, Repr

/-- The loop of `rsa_generate_keypair` (R222): a retry where MODINV ends with NonInvertibleElement. DESIGN CHOICE
(log 21): the sequence ends where the rule's listing ends, and the overwriting of `R2` and `R1` that the host "should" do
after reading them is left to the host's next loads: on return `R2` holds `d` and `R1` holds `φ`. -/
def keypairSearch (hrng : Nat → Nat) (maxTries keygenRounds bits : Nat) : Nat → Nat → HostSeq RsaKeypair
  | 0, _ => seqFail .keyGenerationFailure
  | tries + 1, k =>
    seqThen (rsaGeneratePrime hrng maxTries keygenRounds (bits / 2) k) fun p =>
    seqThen (rsaGeneratePrime hrng maxTries keygenRounds (bits / 2) p.2) fun q =>
    seqThen (seqLoad (.r 0) 65537) fun _ =>
    seqThen (seqLoad (.r 1) ((p.1 - 1) * (q.1 - 1))) fun _ =>
    seqThen (seqCommand (.modinv 2 0 1)) fun status =>
      if status.extractLsb' 4 4 = Error.nonInvertibleElement.code then
        keypairSearch hrng maxTries keygenRounds bits tries q.2
      else if status.extractLsb' 4 4 = 0 then
        seqThen (seqRead (.r 2)) fun d => seqReturn ⟨65537, d, p.1 * q.1⟩
      else seqFail (.engineError (status.extractLsb' 4 4))

/-- `rsa_generate_keypair(bits)` (R222). -/
def rsaGenerateKeypair (hrng : Nat → Nat) (maxTries keygenRounds bits k : Nat) : HostSeq RsaKeypair := fun s =>
  if 2 ≤ bits ∧ bits ≤ s.build.W - 1 ∧ keygenRounds ≤ Config.maxRounds then
    keypairSearch hrng maxTries keygenRounds bits maxTries k s
  else seqFail .invalidParameters s

/-- The one MODPOW of `rsa_encrypt` and of `rsa_decrypt`, with the listing's registers (R224, R225). -/
def rsaPower (m e n : Int) : HostSeq Int :=
  seqOperands [m, e, n] [] <|
  seqThen (seqLoad (.r 0) m) fun _ =>
  seqThen (seqLoad (.r 1) e) fun _ =>
  seqThen (seqLoad (.r 2) n) fun _ =>
  seqThen (seqRun (.modpow 3 0 1 2)) fun _ => seqRead (.r 3)

/-- `rsa_encrypt(message, (e, n))` (R224). -/
def rsaEncrypt (message e n : Int) : HostSeq Int := rsaPower message e n

/-- `rsa_decrypt(ciphertext, (d, n))` (R225). -/
def rsaDecrypt (ciphertext d n : Int) : HostSeq Int := rsaPower ciphertext d n

/-! Point enumeration. -/

/-- The sequence over a list, its answers kept in order where there is one. -/
def seqCollect {α β : Type} (f : α → HostSeq (Option β)) : List α → HostSeq (List β)
  | [] => seqReturn []
  | a :: as => seqThen (f a) fun b => seqThen (seqCollect f as) fun bs => seqReturn (b.toList ++ bs)

/-- The test of one pair of coordinates (R230). -/
def enumerateAt (xy : Nat × Nat) : HostSeq (Option (Int × Int)) :=
  seqThen (seqLoadPoint 0 (.aff xy.1 xy.2)) fun _ =>
  seqThen (seqRun (.econcurve 0)) fun status =>
    seqReturn (if status.getLsbD 2 then some ((xy.1 : Int), (xy.2 : Int)) else none)

/-- `ec_enumerate(curve)`: ascending `x`, then ascending `y`, without `Inf` (R230). -/
def ecEnumerate (c : CurveParams) : HostSeq (List (Int × Int)) :=
  seqOperands c.coefficients [] <|
  seqThen (seqCurve c) fun _ =>
    seqCollect enumerateAt
      ((List.range c.p.toNat).flatMap fun x => (List.range c.p.toNat).map fun y => (x, y))

end Sys2Proof.Machine
end

