-- ==== Sys2Proof/Safety.lean ====
section
/-! DEFINITION. The terms claims use: the invariant of the status fields, the table of error causes (spec/60_exceptions.md
R246), and what a Complete leaves alone (spec/20_memory.md R79, spec/60_exceptions.md R244). -/

namespace Sys2Proof.Machine

/-- The word of the window at a byte offset from `BASE` (20_memory.md R62). -/
def wordAt (off : Nat) : WordAddr := BitVec.ofNat 12 (off / 4)

/-- The status fields agree: `BUSY` and `DONE` are never both 1 (10_state.md R32), `ERR` is 0 while busy (20_memory.md
R82), and the codes 4 to 15 are never produced (10_state.md R36). -/
abbrev State.Coherent (s : State) : Prop :=
  ¬(s.busy = true ∧ s.done = true) ∧ (s.busy = true → s.err = 0) ∧ s.err.toNat ≤ 3

/-- An affine point with a coordinate outside `[0, p-1]`. -/
def pointOutside (p : Int) : Point → Bool
  | .inf => false
  | .aff x y => x < 0 || p - 1 < x || y < 0 || p - 1 < y

/-- The conditions that give code 2, row by row of the table of R246. -/
def State.invalidOperands (s : State) : Instr → Bool
  | .nop => false
  | .modred _ _ rs3 => s.x rs3 < 1
  | .modinv _ _ rs3 => s.x rs3 < 1
  | .modpow _ _ rs2 rs3 => s.x rs3 < 1 || s.x rs2 < 0
  | .mrround rs1 rs2 => s.x rs1 < 5 || s.x rs1 % 2 = 0 || s.x rs2 < 2 || s.x rs1 - 2 < s.x rs2
  | .isprime _ _ => false
  | .econcurve ps1 => s.curveP < 1 || pointOutside s.curveP (s.pt ps1)
  | .ecneg _ ps1 => s.curveP < 1 || pointOutside s.curveP (s.pt ps1)
  | .ecdbl _ ps1 => s.curveP < 1 || pointOutside s.curveP (s.pt ps1)
  | .ecadd _ ps1 ps2 =>
    s.curveP < 1 || pointOutside s.curveP (s.pt ps1) || pointOutside s.curveP (s.pt ps2)
  | .ecsmul _ _ ps1 => s.curveP < 1 || pointOutside s.curveP (s.pt ps1)

/-- The cause of code 1: MODINV of an element that shares a factor with the modulus (R241). -/
def State.nonInvertible (s : State) : Instr → Bool
  | .nop => false
  | .modred _ _ _ => false
  | .modinv _ rs1 rs3 => Int.gcd (s.x rs1) (s.x rs3) ≠ 1
  | .modpow _ _ _ _ => false
  | .mrround _ _ => false
  | .isprime _ _ => false
  | .econcurve _ => false
  | .ecneg _ _ => false
  | .ecdbl _ _ => false
  | .ecadd _ _ _ => false
  | .ecsmul _ _ _ => false

/-- The commands that write `T` (10_state.md R33). -/
def isPredicate : Instr → Bool
  | .nop => false
  | .modred _ _ _ => false
  | .modinv _ _ _ => false
  | .modpow _ _ _ _ => false
  | .mrround _ _ => true
  | .isprime _ _ => true
  | .econcurve _ => true
  | .ecneg _ _ => false
  | .ecdbl _ _ => false
  | .ecadd _ _ _ => false
  | .ecsmul _ _ _ => false

/-- A host event that leaves a busy engine busy: a read, or a write that is no soft reset. -/
def Event.isHostAccess : Event → Bool
  | .read _ => true
  | .write wa d => !(wa == 2#12 && d.getLsbD 1)
  | .hardReset => false
  | .engine => false
  | .narrow => false

/-- What every Complete leaves as it was, and the end it comes to (20_memory.md R79, 10_state.md R22). -/
structure CompletionFrame (s t : State) : Prop where
  build : t.build = s.build
  ca : t.int .ca = s.int .ca
  cb : t.int .cb = s.int .cb
  cp : t.int .cp = s.int .cp
  ie : t.ie = s.ie
  ovr : t.ovr = s.ovr
  cmd : t.cmd = s.cmd
  schedule : t.schedule = s.schedule
  readData : t.readData = s.readData
  busy : t.busy = false
  done : t.done = true

/-- Point register `Pj` holds what it held: the tag and both coordinates. -/
def KeepsPoint (s t : State) (j : PIdx) : Prop :=
  t.tag j = s.tag j ∧ t.int (.px j) = s.int (.px j) ∧ t.int (.py j) = s.int (.py j)

/-- Every word of the register window reads as before, but for `STATUS` and the words of the registers `touched`. -/
def KeepsWindow (s t : State) (touched : WindowReg → Prop) : Prop :=
  ∀ wa, s.windowAt wa ≠ .status → ¬touched (s.windowAt wa) → t.busRead wa = s.busRead wa

/-- The Complete wrote nothing but `STATUS.ERR`, `BUSY` and `DONE` (R244). -/
def WritesOnlyStatus (s t : State) : Prop :=
  CompletionFrame s t ∧ (∀ i, t.x i = s.x i) ∧ (∀ j, KeepsPoint s t j) ∧ t.t = s.t ∧ t.draws = s.draws ∧
    KeepsWindow s t (fun _ => False)

/-- The Complete wrote the integer register `Rd` and the status: all else is as it was. -/
def WritesOnlyInteger (rd : RIdx) (s t : State) : Prop :=
  CompletionFrame s t ∧ (∀ i, i ≠ rd → t.x i = s.x i) ∧ (∀ j, KeepsPoint s t j) ∧ t.t = s.t ∧ t.draws = s.draws ∧
    KeepsWindow s t (fun w => ∃ k, w = .limb (.r rd) k)

/-- The Complete wrote the point register `Pd` (its tag and coordinates) and the status: all else is as it was. -/
def WritesOnlyPoint (pd : PIdx) (s t : State) : Prop :=
  CompletionFrame s t ∧ (∀ i, t.x i = s.x i) ∧ (∀ j, j ≠ pd → KeepsPoint s t j) ∧ t.t = s.t ∧ t.draws = s.draws ∧
    KeepsWindow s t (fun w => w = .ptag ∨ ∃ k, w = .limb (.px pd) k ∨ w = .limb (.py pd) k)

/-- The Complete wrote the flag `T` and the status: all else is as it was, but for the count of draws. -/
def WritesOnlyFlag (s t : State) : Prop :=
  CompletionFrame s t ∧ (∀ i, t.x i = s.x i) ∧ (∀ j, KeepsPoint s t j) ∧ KeepsWindow s t (fun _ => False)

/-- Every point register holds `Inf` or a point of the curve with coordinates in `[0, p-1]`. -/
def State.OnCurve (s : State) : Prop :=
  ∀ j, pointInRange s.curveP (s.pt j) = true ∧ ecOn s.curveA s.curveB s.curveP (s.pt j) = true

end Sys2Proof.Machine
end

