-- ==== Sys2Proof/Certificates/Slice0/Obligations.lean ====
section
/-! DEFINITION. The statements for the provers. A rule R<n> is a rule of spec/. -/

open Sys2Proof Sys2Proof.Machine

/-! ## Reset, step, decoding -/

/-- R271, R272: both resets put every piece of state at its reset value, in any state, busy or not; the soft reset
stores nothing else; the engine is idle afterwards. -/
def Obligations.ResetPutsEveryPieceAtItsResetValue : Prop :=
  ∀ (s : State) (d : Word), d.getLsbD 1 = true →
    performEvent .hardReset s = .next s.resetEngine ∧ s.busWrite (wordAt 0x0008) d = s.resetEngine ∧
    (∀ v, s.resetEngine.int v = 0) ∧ (∀ j, s.resetEngine.tag j = false ∧ s.resetEngine.pt j = .aff 0 0) ∧
    s.resetEngine.ie = false ∧ s.resetEngine.statusWord = 0 ∧ s.resetEngine.cmd = 0 ∧ s.resetEngine.irq = false ∧
    s.resetEngine.busRead (wordAt 0x0000) = s.busRead (wordAt 0x0000) ∧
    s.resetEngine.busRead (wordAt 0x0004) = s.busRead (wordAt 0x0004) ∧
    engineTurn s.resetEngine = .next s.resetEngine ∧ (s.busRead (wordAt 0x0008)).getLsbD 1 = false

/-- The reset state of every build meets the invariant of the status fields; `State.reset` is the one with `W = 64`,
the model's choice (log 1). -/
def Obligations.ResetStateIsCoherent : Prop :=
  (∀ b, (State.resetFor b).Coherent) ∧ State.reset = State.resetFor Config.referenceBuild ∧ State.reset.Coherent

/-- The engine's turn, where the schedule is empty or names it: while `BUSY = 1`, a Complete, which decodes `CMD` and
performs the command (R79, R100) or ends with code 3 for a word that is none (R99, R243); while `BUSY = 0`, nothing
(R79, R263). The place of the turn in the order is the model's schedule (log 2), and so is an engine event that finds
the engine idle (log 11). -/
def Obligations.StepRunsTheAcceptedCommand : Prop :=
  ∀ s : State,
    (∀ i : Instr, s.busy = true → decode s.cmd = .command i →
      (s.schedule = [] → step s = exec i s) ∧
      (∀ rest, s.schedule = .engine :: rest → step s = exec i (s.setSchedule rest))) ∧
    (s.busy = true → decode s.cmd = .illegalCommand →
      (s.schedule = [] → step s = .next { s with err := 3, busy := false, done := true }) ∧
      (∀ rest, s.schedule = .engine :: rest →
        step s = .next { s with schedule := rest, err := 3, busy := false, done := true })) ∧
    (s.busy = false →
      (s.schedule = [] → step s = .next s) ∧
      (∀ rest, s.schedule = .engine :: rest → step s = .next { s with schedule := rest }))

/-- A command placed for the fetch is the command the next step performs (log 6). -/
def Obligations.PlacedWordIsTheNextCommand : Prop :=
  ∀ (s : State) (i : Instr), i.wellFormed = true →
    step (s.withFetchWord 32 (encode i).toNat) = exec i (s.placeCommand (encode i))

/-- Words of R103, written out from the encoding, decode to the commands they stand for. -/
def Obligations.WorkedWordsDecode : Prop :=
  decode 0x00000000 = .command .nop ∧ decode 0x00210312 = .command (.modpow 3 0 1 2) ∧
  decode 0xFFFF5019 = .command (.isprime 5 65535) ∧ decode 0x00703324 = .command (.ecsmul 3 7 3) ∧
  decode 0x00010010 = .illegalCommand ∧ decode 0x00008019 = .illegalCommand

/-- Decoding the word of a well-formed command gives the command back. -/
def Obligations.DecodeOfEncodeIsTheCommand : Prop :=
  ∀ i : Instr, i.wellFormed = true → decode (encode i) = .command i

/-- A word that decodes to a command is the word of that command: no bit of a legal word is dropped. -/
def Obligations.EncodeOfDecodeIsTheWord : Prop :=
  ∀ (c : Word) (i : Instr), decode c = .command i → i.wellFormed = true ∧ encode i = c

/-- R98: no word matches two rows. -/
def Obligations.NoWordMatchesTwoRows : Prop :=
  ∀ (c : Word) (o o' : Op), o.matchesWord c = true → o'.matchesWord c = true → o = o'

/-- R99: a word is illegal exactly when its opcode is not listed, or is listed and a bit outside the opcode that the
row's mask covers is 1. -/
def Obligations.ReservedWordsAreIllegal : Prop :=
  ∀ c : Word, decode c = .illegalCommand ↔
    (∀ o ∈ Op.all, o.opcode ≠ c.extractLsb' 0 8) ∨
    ∃ o ∈ Op.all, o.opcode = c.extractLsb' 0 8 ∧ c &&& (o.mask &&& 0xFFFFFF00) ≠ 0

/-! ## How a Complete ends -/

/-- R243: a word that matches no row ends with code 3; nothing else is written. -/
def Obligations.IllegalWordEndsWithCodeThree : Prop :=
  ∀ s : State, (∀ o ∈ Op.all, s.cmd &&& o.mask ≠ o.pattern) →
    ∃ t, complete s = .next t ∧ t.err = 3 ∧ WritesOnlyStatus s t

/-- R244: a Complete that ends with a code other than 0 writes that code, `BUSY` and `DONE`, and nothing else. -/
def Obligations.ErringCompleteWritesOnlyItsCode : Prop :=
  ∀ s t : State, complete s = .next t → t.err ≠ 0 → t = { s with err := t.err, busy := false, done := true }

/-- R240: no command stops the engine; after any Complete it is idle and accepts the next command. -/
def Obligations.EveryCompleteLeavesAnIdleEngine : Prop :=
  ∀ s : State, ∃ t, complete s = .next t ∧ t.busy = false ∧ t.done = true ∧
    ∀ d, t.busWrite (wordAt 0x0010) d = t.accept d

/-- The one stop of the model is the refusal of a narrow access. That the model refuses what R70 leaves open as
`BRIDGE_NARROW` is the model's choice (log 8), and so is the list of events it reads the access from (log 2). -/
def Obligations.OnlyNarrowAccessesAreRefused : Prop :=
  ∀ (s : State) (r : Refusal), step s = .refused r ↔ r = .narrowAccess ∧ ∃ rest, s.schedule = .narrow :: rest

/-- R246, R244: under the condition of its row a command ends with code 2 and writes nothing else. -/
def Obligations.InvalidOperandsWriteNothing : Prop :=
  ∀ (s : State) (i : Instr), s.invalidOperands i = true →
    ∃ t, exec i s = .next t ∧ t.err = 2 ∧ WritesOnlyStatus s t

/-- R246: a command ends with code 2 exactly under the condition of its row of the table; else MODINV alone ends with
code 1, for an element without inverse, and every other end is code 0 (R241, R247). The condition does not depend on
`T`, on a previous command's code or on a draw. -/
def Obligations.EveryCommandReportsOneCode : Prop :=
  ∀ (s t : State) (i : Instr), exec i s = .next t →
    (t.err = if s.invalidOperands i then 2 else if s.nonInvertible i then 1 else 0) ∧
    ∀ (b : Bool) (e : BitVec 4) (n : Nat),
      { s with t := b, err := e, draws := n }.invalidOperands i = s.invalidOperands i

/-- No command writes a curve register, `IE`, `OVR`, `CMD`; every command ends with `BUSY = 0`, `DONE = 1` (R22, R79). -/
def Obligations.EveryCommandKeepsCurveAndControl : Prop :=
  ∀ (s t : State) (i : Instr), exec i s = .next t → CompletionFrame s t

/-- No command but a predicate that ends without error writes `T`, and no accept does (R33); a step changes it only by
the Complete of such a predicate or by a reset, hard or soft, which clears it (R32). That a step takes its event from a
list is the model's choice (log 2). -/
def Obligations.OnlyPredicatesWriteT : Prop :=
  ∀ s : State,
    (∀ (t : State) (i : Instr), exec i s = .next t → isPredicate i = false ∨ t.err ≠ 0 → t.t = s.t) ∧
    (∀ d, (s.accept d).t = s.t) ∧
    ∀ t, step s = .next t →
      t.t = s.t ∨
      (t.t = false ∧ ∃ rest, s.schedule = .hardReset :: rest ∨
        ∃ d : Word, d.getLsbD 1 = true ∧ s.schedule = .write (wordAt 0x0008) d :: rest) ∨
      (s.busy = true ∧ t.err = 0 ∧ (s.schedule = [] ∨ ∃ rest, s.schedule = .engine :: rest) ∧
        ∃ i, decode s.cmd = .command i ∧ isPredicate i = true)

/-- A command leaves each integer register as it was or writes a value of `[0, 2^(W-1) - 2]` (R21). -/
def Obligations.WrittenIntegersAreInRange : Prop :=
  ∀ (s t : State) (i : Instr), exec i s = .next t →
    ∀ j, t.x j = s.x j ∨ (0 ≤ t.x j ∧ t.x j ≤ 2 ^ (s.build.W - 1) - 2)

/-! ## Invariants -/

/-- From every state, reached or not, a step keeps `BUSY` and `DONE` apart, `ERR = 0` while busy, and the codes 4 to 15
unused (R32, R36, R82). -/
def Obligations.StepKeepsStatusCoherent : Prop :=
  ∀ s t : State, s.Coherent → step s = .next t → t.Coherent

/-- No step changes the build: `W` is a parameter, not state (R5, R43); that it stands in the state is the model's
choice (log 1). -/
def Obligations.StepKeepsTheBuild : Prop :=
  ∀ s t : State, step s = .next t → t.build = s.build

/-- A command on points of the curve leaves points of the curve, for every modulus, prime or not (R161 to R165, R190). -/
def Obligations.CommandsKeepPointsOnTheCurve : Prop :=
  ∀ (s t : State) (i : Instr), s.OnCurve → exec i s = .next t → t.OnCurve

/-! ## The register window -/

/-- R65: the complete address map. -/
def Obligations.AddressMapOfTheWindow : Prop :=
  ∀ s : State,
    s.windowAt (wordAt 0x0000) = .id ∧ s.windowAt (wordAt 0x0004) = .config ∧ s.windowAt (wordAt 0x0008) = .ctrl ∧
    s.windowAt (wordAt 0x000C) = .status ∧ s.windowAt (wordAt 0x0010) = .cmd ∧ s.windowAt (wordAt 0x0014) = .ptag ∧
    (∀ off, off % 4 = 0 → (0x0018 ≤ off ∧ off ≤ 0x0FFC) ∨ (0x2600 ≤ off ∧ off ≤ 0x2FFC) →
      s.windowAt (wordAt off) = .reserved) ∧
    ∀ k, k < s.build.limbs →
      (∀ i : RIdx, s.windowAt (wordAt (0x1000 + 0x200 * i.val + 4 * k)) = .limb (.r i) k) ∧
      s.windowAt (wordAt (0x2000 + 4 * k)) = .limb .ca k ∧ s.windowAt (wordAt (0x2200 + 4 * k)) = .limb .cb k ∧
      s.windowAt (wordAt (0x2400 + 4 * k)) = .limb .cp k ∧
      ∀ j : PIdx, s.windowAt (wordAt (0x3000 + 0x400 * j.val + 4 * k)) = .limb (.px j) k ∧
        s.windowAt (wordAt (0x3200 + 0x400 * j.val + 4 * k)) = .limb (.py j) k

/-- R66: the two reserved ranges and the words of a slot with `k >= LIMBS` read 0 and ignore writes, busy or not. -/
def Obligations.ReservedOffsetsReadZeroAndIgnoreWrites : Prop :=
  ∀ (s : State) (off : Nat), off % 4 = 0 → off < 0x4000 →
    (0x0018 ≤ off ∧ off ≤ 0x0FFC) ∨ (0x2600 ≤ off ∧ off ≤ 0x2FFC) ∨
      (0x1000 ≤ off ∧ s.build.limbs ≤ off % 0x200 / 4) →
    s.busRead (wordAt off) = 0 ∧ ∀ d, s.busWrite (wordAt off) d = s

/-- R29, R30: the two constants, whose writes are ignored. -/
def Obligations.IdAndConfigAreConstants : Prop :=
  ∀ s : State,
    s.busRead (wordAt 0x0000) = 0x4D454501 ∧
    ((s.busRead (wordAt 0x0004)).extractLsb' 0 16).toNat = s.build.limbs ∧
    (s.busRead (wordAt 0x0004)).extractLsb' 16 4 = 8 ∧ (s.busRead (wordAt 0x0004)).extractLsb' 20 4 = 4 ∧
    (s.busRead (wordAt 0x0004)).extractLsb' 24 8 = 0 ∧
    ∀ d, s.busWrite (wordAt 0x0000) d = s ∧ s.busWrite (wordAt 0x0004) d = s

/-- R31: `CTRL`. -/
def Obligations.CtrlWriteSetsEnableOrResets : Prop :=
  ∀ (s : State) (d : Word),
    (d.getLsbD 1 = false → s.busWrite (wordAt 0x0008) d = { s with ie := d.getLsbD 0 }) ∧
    (d.getLsbD 1 = true → s.busWrite (wordAt 0x0008) d = s.resetEngine) ∧ s.resetEngine.ie = false ∧
    s.busRead (wordAt 0x0008) = (if s.ie then 1 else 0) ∧ s.irq = (s.done && s.ie)

/-- The fields of `STATUS` stand where the layout says, and a write of ones to bits 1 and 3 clears `DONE` and `OVR`
alone, busy or not (R32). -/
def Obligations.StatusLayoutAndWriteOneToClear : Prop :=
  ∀ (s : State) (d : Word),
    (s.busRead (wordAt 0x000C)).getLsbD 0 = s.busy ∧ (s.busRead (wordAt 0x000C)).getLsbD 1 = s.done ∧
    (s.busRead (wordAt 0x000C)).getLsbD 2 = s.t ∧ (s.busRead (wordAt 0x000C)).getLsbD 3 = s.ovr ∧
    (s.busRead (wordAt 0x000C)).extractLsb' 4 4 = s.err ∧ (s.busRead (wordAt 0x000C)).extractLsb' 8 24 = 0 ∧
    s.busWrite (wordAt 0x000C) d =
      { s with done := s.done && !d.getLsbD 1, ovr := s.ovr && !d.getLsbD 3 }

/-- A write to `CMD` while idle is the accept: `CMD <- d`, `BUSY <- 1`, `DONE <- 0`, `ERR <- 0`, in one step; a read
returns the held word (R37). -/
def Obligations.CmdWriteIsTheAccept : Prop :=
  ∀ (s : State) (d : Word),
    (s.busy = false → s.busWrite (wordAt 0x0010) d = { s with cmd := d, busy := true, done := false, err := 0 }) ∧
    (s.busy = true → s.busWrite (wordAt 0x0010) d = { s with ovr := true }) ∧ s.busRead (wordAt 0x0010) = s.cmd

/-- R38: `PTAG`. -/
def Obligations.PtagWriteReplacesAllFourTags : Prop :=
  ∀ (s : State) (d : Word),
    (∀ j : PIdx, (s.busRead (wordAt 0x0014)).getLsbD j.val = s.tag j) ∧
    (s.busRead (wordAt 0x0014)).extractLsb' 4 28 = 0 ∧ (∀ j : PIdx, s.resetEngine.tag j = false) ∧
    (s.busy = false → s.busWrite (wordAt 0x0014) d = { s with ptag := d.extractLsb' 0 4 } ∧
      ∀ j : PIdx, (s.busWrite (wordAt 0x0014) d).tag j = d.getLsbD j.val) ∧
    (s.busy = true → s.busWrite (wordAt 0x0014) d = { s with ovr := true })

/-- R68: a write of `d` to limb `k` of a wide register sets that limb and leaves the other limbs and the other wide
registers; a read of the limb returns it. -/
def Obligations.LimbWriteReachesItsLimbOnly : Prop :=
  ∀ (s : State) (wa : WordAddr) (v : WideReg) (k : Nat) (d : Word), s.windowAt wa = .limb v k →
    s.busRead wa = readLimb (s.wide v) k ∧
    (s.busy = false →
      (s.busWrite wa d).busRead wa = d ∧ readLimb ((s.busWrite wa d).wide v) k = d ∧
      (∀ k', k' < s.build.limbs → k' ≠ k → readLimb ((s.busWrite wa d).wide v) k' = readLimb (s.wide v) k') ∧
      (∀ v', v' ≠ v → (s.busWrite wa d).int v' = s.int v') ∧
      ∀ wa', wa' ≠ wa → (s.busWrite wa d).busRead wa' = s.busRead wa')

/-- R81: host writes while `BUSY = 1`. -/
def Obligations.BusyWritesAreDroppedWithOverrun : Prop :=
  ∀ (s : State) (wa : WordAddr) (d : Word), s.busy = true →
    (s.windowAt wa = .ctrl → s.busWrite wa d = s.writeCtrl d) ∧
    (s.windowAt wa = .status → s.busWrite wa d = s.writeStatus d) ∧
    (s.windowAt wa = .reserved ∨ s.windowAt wa = .id ∨ s.windowAt wa = .config → s.busWrite wa d = s) ∧
    (s.windowAt wa = .cmd ∨ s.windowAt wa = .ptag ∨ (∃ v k, s.windowAt wa = .limb v k) →
      s.busWrite wa d = { s with ovr := true })

/-- The step of a host event. A host read changes no state of the engine, and the word it returns is the word at its
offset (R63); a host write does what the register at its offset says (R64); the hard reset line resets (R270); each
sees the state that earlier events left (R77). That the word of a read then stands in `readData` (log 5), and the list
of events (log 2), are the model's choices. -/
def Obligations.HostReadChangesNothing : Prop :=
  ∀ (s : State) (rest : List Event),
    (∀ wa, s.schedule = .read wa :: rest →
      step s = .next { s with schedule := rest, readData := s.busRead wa }) ∧
    (∀ wa d, s.schedule = .write wa d :: rest → step s = .next ((s.setSchedule rest).busWrite wa d)) ∧
    (s.schedule = .hardReset :: rest → step s = .next (s.setSchedule rest).resetEngine)

/-- Host reads and host writes but a soft reset, between the accept of a word that is a command and its Complete, cannot
change the result: registers, tags, `T` and `ERR` are those of the Complete at the accept (R81 to R83). Illegal words
are left out here. The order of the events is the model's schedule (log 2); that ISPRIME draws the same words in both
runs, so that `T` and the count of draws agree, is the model's oracle, a stream indexed by that count (log 3). -/
def Obligations.HostAccessesWhileBusyCannotChangeTheResult : Prop :=
  ∀ (s : State) (es rest : List Event) (i : Instr), s.busy = true → decode s.cmd = .command i →
    s.schedule = es ++ .engine :: rest → (∀ e ∈ es, e.isHostAccess = true) →
    ∃ t u : State, Host.Core.run Sys2Proof.core (es.length + 1) s = .next t ∧ exec i s = .next u ∧
      (∀ v, t.int v = u.int v) ∧ (∀ j, t.tag j = u.tag j) ∧ t.t = u.t ∧ t.err = u.err ∧ t.draws = u.draws ∧
      t.cmd = s.cmd ∧ t.busy = false ∧ t.done = true ∧ t.schedule = rest

/-- In the model an accepted command that no reset abandons (R273) is completed after finitely many events. The model's
finite schedule, with the engine's turn where it is empty, is its choice and stands in for the fair schedule that R290
presumes (log 2). -/
def Obligations.AcceptedCommandIsCompleted : Prop :=
  ∀ s : State, s.busy = true → (∀ e ∈ s.schedule, e.isHostAccess = true ∨ e = .engine) →
    ∃ (k : Nat) (t : State), k ≤ s.schedule.length + 1 ∧ Host.Core.run Sys2Proof.core k s = .next t ∧
      t.busy = false ∧ t.done = true

/-! ## NOP and the modular arithmetic commands -/

/-- NOP completes and changes nothing but the status (R200). -/
def Obligations.NopCompletes : Prop :=
  ∀ s : State, ∃ t, exec .nop s = .next t ∧ t.err = 0 ∧ WritesOnlyStatus s t

/-- MODRED writes the one value of `[0, m-1]` that differs from the source by a multiple of the modulus (R124, R11). -/
def Obligations.ModredWritesTheResidue : Prop :=
  ∀ (s : State) (rd rs1 rs3 : RIdx), 1 ≤ s.x rs3 →
    ∃ t, exec (.modred rd rs1 rs3) s = .next t ∧ t.err = 0 ∧ WritesOnlyInteger rd s t ∧
      0 ≤ t.x rd ∧ t.x rd ≤ s.x rs3 - 1 ∧ s.x rs3 ∣ s.x rs1 - t.x rd

/-- MODINV of an element prime to the modulus writes its unique inverse in `[0, m-1]` (R128, R13). -/
def Obligations.ModinvWritesTheInverse : Prop :=
  ∀ (s : State) (rd rs1 rs3 : RIdx), 1 ≤ s.x rs3 → Int.gcd (s.x rs1) (s.x rs3) = 1 →
    ∃ t, exec (.modinv rd rs1 rs3) s = .next t ∧ t.err = 0 ∧ WritesOnlyInteger rd s t ∧
      0 ≤ t.x rd ∧ t.x rd ≤ s.x rs3 - 1 ∧ s.x rs3 ∣ s.x rs1 * t.x rd - 1 ∧
      ∀ y, 0 ≤ y → y ≤ s.x rs3 - 1 → s.x rs3 ∣ s.x rs1 * y - 1 → y = t.x rd

/-- MODINV of an element that shares a factor with the modulus ends with code 1 and writes nothing else (R128). -/
def Obligations.ModinvWithoutInverseReportsCodeOne : Prop :=
  ∀ (s : State) (rd rs1 rs3 : RIdx), 1 ≤ s.x rs3 → Int.gcd (s.x rs1) (s.x rs3) ≠ 1 →
    ∃ t, exec (.modinv rd rs1 rs3) s = .next t ∧ t.err = 1 ∧ WritesOnlyStatus s t

/-- MODPOW writes the power of the base, reduced (R133, R14). -/
def Obligations.ModpowWritesThePower : Prop :=
  ∀ (s : State) (rd rs1 rs2 rs3 : RIdx), 1 ≤ s.x rs3 → 0 ≤ s.x rs2 →
    ∃ t, exec (.modpow rd rs1 rs2 rs3) s = .next t ∧ t.err = 0 ∧ WritesOnlyInteger rd s t ∧
      t.x rd = s.x rs1 ^ (s.x rs2).toNat % s.x rs3

/-- R13: `inv(a, m)` is the unique inverse where one exists, and none exactly where `a` shares a factor with `m`. -/
def Obligations.InverseIsUniqueOrAbsent : Prop :=
  ∀ a m : Int, 1 ≤ m →
    (∀ x, inv a m = some x ↔ 0 ≤ x ∧ x ≤ m - 1 ∧ m ∣ a * x - 1) ∧ (inv a m = none ↔ Int.gcd (a % m) m ≠ 1)

/-- R14: repeated squaring computes the reduced power. -/
def Obligations.RepeatedSquaringIsThePower : Prop :=
  ∀ (b m : Int) (e : Nat), 1 ≤ m → modpow b e m = b ^ e % m

/-- RSA on the engine: for two distinct primes, the exponent MODINV derives inverts the encryption MODPOW computes, for
every message of `[0, n-1]` and every public exponent prime to `φ` (R222, R224 to R226). -/
def Obligations.RsaRoundTripOnTheEngine : Prop :=
  ∀ (s : State) (p q : Nat) (m e n φ d c m' : RIdx), [m, e, n, φ, d, c, m'].Nodup →
    p.Prime → q.Prime → p ≠ q → s.x n = (p : Int) * q → s.x φ = ((p : Int) - 1) * (q - 1) →
    0 ≤ s.x m → s.x m < s.x n → 1 ≤ s.x e → Int.gcd (s.x e) (s.x φ) = 1 →
    ∃ t u v, exec (.modinv d e φ) s = .next t ∧ exec (.modpow c m e n) t = .next u ∧
      exec (.modpow m' c d n) u = .next v ∧ v.x m' = s.x m

/-! ## The primality commands -/

/-- MRROUND on operands of its domain writes `T`: true exactly when, with `n - 1 = d * 2^r` and `d` odd, `a^d` is 1
modulo `n` or one of the powers `a^(d * 2^k)`, `k < r`, is `-1` (R142, R143). -/
def Obligations.MrroundTestsTheWitness : Prop :=
  ∀ (s : State) (rs1 rs2 : RIdx), 5 ≤ s.x rs1 → s.x rs1 % 2 = 1 → 2 ≤ s.x rs2 → s.x rs2 ≤ s.x rs1 - 2 →
    ∃ t, exec (.mrround rs1 rs2) s = .next t ∧ t.err = 0 ∧ WritesOnlyFlag s t ∧ t.draws = s.draws ∧
      ∃ d r : Nat, s.x rs1 - 1 = d * 2 ^ r ∧ d % 2 = 1 ∧ 1 ≤ r ∧
        (t.t = true ↔ s.x rs1 ∣ s.x rs2 ^ d - 1 ∨ ∃ k < r, s.x rs1 ∣ s.x rs2 ^ (d * 2 ^ k) + 1)

/-- ISPRIME always completes without error and writes `T` alone; trial division decides without a draw: false below 2,
true for a member of the small-prime set, false for another multiple of one; with no round an undecided number gives
true (R145, R146). That the count of draws stands in the state is the model's choice (log 3). -/
def Obligations.IsprimeByTrialDivision : Prop :=
  ∀ (s : State) (rs1 : RIdx) (rounds : Nat),
    ∃ t, exec (.isprime rs1 rounds) s = .next t ∧ t.err = 0 ∧ WritesOnlyFlag s t ∧
      (s.x rs1 < 2 → t.t = false ∧ t.draws = s.draws) ∧
      (s.x rs1 ∈ ([2, 3, 5, 7, 11, 13, 17, 19, 23, 29] : List Int) → t.t = true ∧ t.draws = s.draws) ∧
      (2 ≤ s.x rs1 → s.x rs1 ∉ ([2, 3, 5, 7, 11, 13, 17, 19, 23, 29] : List Int) →
        (∃ q ∈ ([2, 3, 5, 7, 11, 13, 17, 19, 23, 29] : List Int), q ∣ s.x rs1) →
        t.t = false ∧ t.draws = s.draws) ∧
      (2 ≤ s.x rs1 → (∀ q ∈ ([2, 3, 5, 7, 11, 13, 17, 19, 23, 29] : List Int), ¬q ∣ s.x rs1) → rounds = 0 →
        t.t = true ∧ t.draws = s.draws)

/-- ISPRIME of a number trial division leaves undecided: `T = 1` exactly when every one of the drawn witnesses passes
its round (R146). The draws are the model's free values (log 3, log 4). -/
def Obligations.IsprimeByDrawnWitnesses : Prop :=
  ∀ (s : State) (rs1 : RIdx) (rounds : Nat), 2 ≤ s.x rs1 →
    (∀ q ∈ ([2, 3, 5, 7, 11, 13, 17, 19, 23, 29] : List Int), ¬q ∣ s.x rs1) →
    ∃ t, exec (.isprime rs1 rounds) s = .next t ∧ t.err = 0 ∧ s.draws ≤ t.draws ∧ t.draws ≤ s.draws + rounds ∧
      (t.t = true ↔
        ∀ k < rounds, mrRound (s.x rs1) (draw (Config.rng (s.draws + k)) 2 (s.x rs1 - 2)) = true)

/-- The set of results of ISPRIME over every source of randomness, for a number trial division leaves undecided: 1 is
possible exactly when there is no round or some witness passes, 0 exactly when there is a round and some witness
fails (R147). The source as a stream of words is the model's choice (log 3, log 4). -/
def Obligations.IsprimeResultSet : Prop :=
  ∀ (n : Int) (rounds k : Nat), trial n = .undecided →
    ((∃ rng, (isProbablyPrime rng n rounds k).1 = true) ↔
      rounds = 0 ∨ ∃ a, 2 ≤ a ∧ a ≤ n - 2 ∧ mrRound n a = true) ∧
    ((∃ rng, (isProbablyPrime rng n rounds k).1 = false) ↔
      1 ≤ rounds ∧ ∃ a, 2 ≤ a ∧ a ≤ n - 2 ∧ mrRound n a = false)

/-- A prime always gives `T = 1`, whatever is drawn (R147, a fact the rule marks as not in the source). -/
def Obligations.PrimesAreAlwaysAccepted : Prop :=
  ∀ (s : State) (rs1 : RIdx) (rounds : Nat), (s.x rs1).toNat.Prime →
    ∃ t, exec (.isprime rs1 rounds) s = .next t ∧ t.err = 0 ∧ t.t = true

/-- R141: `split(n)` is the unique pair. -/
def Obligations.SplitIsTheUniquePair : Prop :=
  ∀ n : Int, 3 ≤ n → n % 2 = 1 →
    n - 1 = ((split n).1 : Int) * 2 ^ (split n).2 ∧ (split n).1 % 2 = 1 ∧ 1 ≤ (split n).2 ∧
    ∀ d r : Nat, n - 1 = (d : Int) * 2 ^ r → d % 2 = 1 → d = (split n).1 ∧ r = (split n).2

/-- R145: the three answers of trial division, in whatever order the set is walked. -/
def Obligations.TrialDivisionAnswers : Prop :=
  ∀ n : Int,
    (trial n = .prime ↔ n ∈ ([2, 3, 5, 7, 11, 13, 17, 19, 23, 29] : List Int)) ∧
    (trial n = .composite ↔ n < 2 ∨ (n ∉ ([2, 3, 5, 7, 11, 13, 17, 19, 23, 29] : List Int) ∧
      ∃ q ∈ ([2, 3, 5, 7, 11, 13, 17, 19, 23, 29] : List Int), q ∣ n)) ∧
    (trial n = .undecided → n % 2 = 1 ∧ 31 ≤ n) ∧
    ∀ l : List Int, l.Perm [2, 3, 5, 7, 11, 13, 17, 19, 23, 29] → 2 ≤ n → trialBy n l = trial n

/-! ## The elliptic-curve commands -/

/-- ECONCURVE writes `T`: true for `Inf`, and for an affine point exactly when the equation holds modulo `p` (R162,
R167). -/
def Obligations.EconcurveTestsTheEquation : Prop :=
  ∀ (s : State) (ps1 : PIdx), 1 ≤ s.curveP → pointOutside s.curveP (s.pt ps1) = false →
    ∃ t, exec (.econcurve ps1) s = .next t ∧ t.err = 0 ∧ WritesOnlyFlag s t ∧ t.draws = s.draws ∧
      (s.pt ps1 = .inf → t.t = true) ∧
      ∀ x y, s.pt ps1 = .aff x y → (t.t = true ↔ s.curveP ∣ y * y - (x * x * x + s.curveA * x + s.curveB))

/-- ECNEG: `Inf` to `Inf`, `(x, y)` to `(x, y')` with `y'` in `[0, p-1]` and `y + y'` a multiple of `p`; a written
`Inf` has zero coordinates (R161, R168, R26). -/
def Obligations.EcnegWritesTheNegative : Prop :=
  ∀ (s : State) (pd ps1 : PIdx), 1 ≤ s.curveP → pointOutside s.curveP (s.pt ps1) = false →
    ∃ t, exec (.ecneg pd ps1) s = .next t ∧ t.err = 0 ∧ WritesOnlyPoint pd s t ∧
      (t.pt pd = .inf → t.int (.px pd) = 0 ∧ t.int (.py pd) = 0) ∧
      (s.pt ps1 = .inf → t.pt pd = .inf) ∧
      ∀ x y, s.pt ps1 = .aff x y →
        ∃ y', t.pt pd = .aff x y' ∧ 0 ≤ y' ∧ y' ≤ s.curveP - 1 ∧ s.curveP ∣ y + y'

/-- ECDBL: `Inf` to `Inf`; `Inf` where `2y` is not invertible; else the point of the tangent's slope; a written `Inf`
has zero coordinates (R163, R169, R26). -/
def Obligations.EcdblWritesTheDouble : Prop :=
  ∀ (s : State) (pd ps1 : PIdx), 1 ≤ s.curveP → pointOutside s.curveP (s.pt ps1) = false →
    ∃ t, exec (.ecdbl pd ps1) s = .next t ∧ t.err = 0 ∧ WritesOnlyPoint pd s t ∧
      (t.pt pd = .inf → t.int (.px pd) = 0 ∧ t.int (.py pd) = 0) ∧
      (s.pt ps1 = .inf → t.pt pd = .inf) ∧
      ∀ x y, s.pt ps1 = .aff x y →
        (Int.gcd (2 * y) s.curveP ≠ 1 → t.pt pd = .inf) ∧
        (Int.gcd (2 * y) s.curveP = 1 → ∃ k x3 y3, t.pt pd = .aff x3 y3 ∧
          0 ≤ x3 ∧ x3 ≤ s.curveP - 1 ∧ 0 ≤ y3 ∧ y3 ≤ s.curveP - 1 ∧
          s.curveP ∣ k * (2 * y) - (3 * x * x + s.curveA) ∧ s.curveP ∣ x3 - (k * k - 2 * x) ∧
          s.curveP ∣ y3 - (k * (x - x3) - y))

/-- ECADD: the identity, inverse, doubling, degenerate and general rules; a written `Inf` has zero coordinates (R165,
R170, R26). -/
def Obligations.EcaddWritesTheSum : Prop :=
  ∀ (s : State) (pd ps1 ps2 : PIdx), 1 ≤ s.curveP → pointOutside s.curveP (s.pt ps1) = false →
    pointOutside s.curveP (s.pt ps2) = false →
    ∃ t, exec (.ecadd pd ps1 ps2) s = .next t ∧ t.err = 0 ∧ WritesOnlyPoint pd s t ∧
      (t.pt pd = .inf → t.int (.px pd) = 0 ∧ t.int (.py pd) = 0) ∧
      (s.pt ps1 = .inf → t.pt pd = s.pt ps2) ∧ (s.pt ps2 = .inf → t.pt pd = s.pt ps1) ∧
      ∀ x1 y1 x2 y2, s.pt ps1 = .aff x1 y1 → s.pt ps2 = .aff x2 y2 →
        (x1 = x2 → y1 ≠ y2 → t.pt pd = .inf) ∧
        (x1 = x2 → y1 = y2 → t.pt pd = ecDbl s.curveA s.curveP (.aff x1 y1)) ∧
        (x1 ≠ x2 → Int.gcd (x2 - x1) s.curveP ≠ 1 → t.pt pd = .inf) ∧
        (x1 ≠ x2 → Int.gcd (x2 - x1) s.curveP = 1 → ∃ k x3 y3, t.pt pd = .aff x3 y3 ∧
          0 ≤ x3 ∧ x3 ≤ s.curveP - 1 ∧ 0 ≤ y3 ∧ y3 ≤ s.curveP - 1 ∧
          s.curveP ∣ k * (x2 - x1) - (y2 - y1) ∧ s.curveP ∣ x3 - (k * k - x1 - x2) ∧
          s.curveP ∣ y3 - (k * (x1 - x3) - y1))

/-- ECSMUL: the shortcut for `Inf` and for a multiple of `p`, the negated point for a negative scalar, and double-and-add;
a written `Inf` has zero coordinates (R190 to R192, R26). -/
def Obligations.EcsmulRunsDoubleAndAdd : Prop :=
  ∀ (s : State) (pd : PIdx) (rk : RIdx) (ps1 : PIdx), 1 ≤ s.curveP → pointOutside s.curveP (s.pt ps1) = false →
    ∃ t, exec (.ecsmul pd rk ps1) s = .next t ∧ t.err = 0 ∧ WritesOnlyPoint pd s t ∧
      (t.pt pd = .inf → t.int (.px pd) = 0 ∧ t.int (.py pd) = 0) ∧
      (s.curveP ∣ s.x rk ∨ s.pt ps1 = .inf → t.pt pd = .inf) ∧
      (¬s.curveP ∣ s.x rk → s.pt ps1 ≠ .inf → s.x rk < 0 →
        t.pt pd = smulFrom s.curveA s.curveP (-s.x rk).toNat .inf (ecNeg s.curveP (s.pt ps1))) ∧
      (¬s.curveP ∣ s.x rk → s.pt ps1 ≠ .inf → 0 < s.x rk →
        t.pt pd = smulFrom s.curveA s.curveP (s.x rk).toNat .inf (s.pt ps1))

/-- The loop of R190, bit by bit: nothing for 0; otherwise the addend is added on a set bit, doubled, and the scalar
halved. -/
def Obligations.DoubleAndAddFollowsTheBits : Prop :=
  ∀ (a p : Int) (acc addend : Point),
    smulFrom a p 0 acc addend = acc ∧
    ∀ k, 0 < k → smulFrom a p k acc addend =
      smulFrom a p (k / 2) (if k % 2 = 1 then ecAdd a p acc addend else acc) (ecDbl a p addend)

/-- `scalar_multiply(-k, P)` is `scalar_multiply(k, negate(P))` for every `k` and every checked `P` (R192). -/
def Obligations.NegativeScalarNegatesThePoint : Prop :=
  ∀ (a p k : Int) (q : Point), 1 ≤ p → pointOutside p q = false →
    ecSmul a p (-k) q = ecSmul a p k (ecNeg p q)

/-- R166: identity, inverse with its exception, doubling consistency, symmetry. -/
def Obligations.GroupLawFacts : Prop :=
  ∀ a p : Int,
    (∀ q, ecAdd a p .inf q = q ∧ ecAdd a p q .inf = q) ∧
    (∀ q, 2 ≤ p → pointOutside p q = false → ecAdd a p q (ecNeg p q) = .inf) ∧
    ecAdd a 1 (.aff 0 0) (.aff 0 0) = .aff 0 0 ∧ (∀ q, ecAdd a p q q = ecDbl a p q) ∧
    ∀ q1 q2, 1 ≤ p → pointOutside p q1 = false → pointOutside p q2 = false → ecAdd a p q1 q2 = ecAdd a p q2 q1

/-- The coordinates of a register tagged `Inf` do not affect any command's result (R25). For ISPRIME the two runs draw
the same words, so that `T` and the count of draws agree: that is the model's oracle, a stream indexed by that count
(log 3). -/
def Obligations.TaggedCoordinatesAreIgnored : Prop :=
  ∀ (s t : State) (i : Instr) (j : PIdx) (x y : Int), s.tag j = true → exec i s = .next t →
    ∃ t', exec i ((s.setInt (.px j) x).setInt (.py j) y) = .next t' ∧ t'.err = t.err ∧ t'.t = t.t ∧
      t'.draws = t.draws ∧ (∀ k, t'.x k = t.x k) ∧ ∀ k, t'.pt k = t.pt k

/-- `a` and `b` act as their residues modulo `p`, and `b` matters to ECONCURVE alone (R22). For ISPRIME the two runs draw
the same words, so that `T` and the count of draws agree: that is the model's oracle, a stream indexed by that count
(log 3). -/
def Obligations.CoefficientsActAsResidues : Prop :=
  ∀ (s t : State) (i : Instr) (a b : Int), fits s.build.W a = true → fits s.build.W b = true →
    s.curveP ∣ a - s.curveA → ((∀ ps1, i ≠ .econcurve ps1) ∨ s.curveP ∣ b - s.curveB) → exec i s = .next t →
    ∃ t', exec i ((s.setInt .ca a).setInt .cb b) = .next t' ∧ t'.err = t.err ∧ t'.t = t.t ∧
      t'.draws = t.draws ∧ (∀ k, t'.x k = t.x k) ∧ ∀ k, t'.pt k = t.pt k

/-! ## The host's macros -/

/-- `LOAD V, n` puts the integer into the register and touches nothing else; `READ V` returns the integer (R102, R67). -/
def Obligations.LoadAndReadMacros : Prop :=
  ∀ (s : State) (v : WideReg) (n : Int),
    s.readWide v = s.int v ∧
    (s.busy = false → fits s.build.W n = true →
      s.loadWide v n = s.setInt v n ∧ (s.loadWide v n).int v = n ∧ (s.loadWide v n).readWide v = n)

/-- `LOADP Pj, Q` puts the point into the register and leaves the other point registers; `READP Pj` returns it (R102). -/
def Obligations.PointMacros : Prop :=
  ∀ (s : State) (j : PIdx) (q : Point),
    s.readPoint j = s.pt j ∧
    (s.busy = false → (∀ x y, q = .aff x y → fits s.build.W x = true ∧ fits s.build.W y = true) →
      (s.loadPoint j q).pt j = q ∧ (s.loadPoint j q).readPoint j = q ∧
      (∀ k, k ≠ j → KeepsPoint s (s.loadPoint j q) k) ∧ ∀ i, (s.loadPoint j q).x i = s.x i)
end

