-- ==== Sys2Proof/Laws/State.lean ====
section
/-! SUPPORT. One lemma per field per update of the state, each true by `rfl`. -/

namespace Sys2Proof.Machine

/-! `setT` -/

@[simp] theorem State.setT_build (s : State) (c : Bool) : (s.setT c).build = s.build := rfl
@[simp] theorem State.setT_r (s : State) (c : Bool) : (s.setT c).r = s.r := rfl
@[simp] theorem State.setT_ca (s : State) (c : Bool) : (s.setT c).ca = s.ca := rfl
@[simp] theorem State.setT_cb (s : State) (c : Bool) : (s.setT c).cb = s.cb := rfl
@[simp] theorem State.setT_cp (s : State) (c : Bool) : (s.setT c).cp = s.cp := rfl
@[simp] theorem State.setT_px (s : State) (c : Bool) : (s.setT c).px = s.px := rfl
@[simp] theorem State.setT_py (s : State) (c : Bool) : (s.setT c).py = s.py := rfl
@[simp] theorem State.setT_ptag (s : State) (c : Bool) : (s.setT c).ptag = s.ptag := rfl
@[simp] theorem State.setT_ie (s : State) (c : Bool) : (s.setT c).ie = s.ie := rfl
@[simp] theorem State.setT_busy (s : State) (c : Bool) : (s.setT c).busy = s.busy := rfl
@[simp] theorem State.setT_done (s : State) (c : Bool) : (s.setT c).done = s.done := rfl
@[simp] theorem State.setT_t (s : State) (c : Bool) : (s.setT c).t = c := rfl
@[simp] theorem State.setT_ovr (s : State) (c : Bool) : (s.setT c).ovr = s.ovr := rfl
@[simp] theorem State.setT_err (s : State) (c : Bool) : (s.setT c).err = s.err := rfl
@[simp] theorem State.setT_cmd (s : State) (c : Bool) : (s.setT c).cmd = s.cmd := rfl
@[simp] theorem State.setT_schedule (s : State) (c : Bool) : (s.setT c).schedule = s.schedule := rfl
@[simp] theorem State.setT_readData (s : State) (c : Bool) : (s.setT c).readData = s.readData := rfl
@[simp] theorem State.setT_draws (s : State) (c : Bool) : (s.setT c).draws = s.draws := rfl

/-! `finish` -/

@[simp] theorem State.finish_build (s : State) (c : BitVec 4) : (s.finish c).build = s.build := rfl
@[simp] theorem State.finish_r (s : State) (c : BitVec 4) : (s.finish c).r = s.r := rfl
@[simp] theorem State.finish_ca (s : State) (c : BitVec 4) : (s.finish c).ca = s.ca := rfl
@[simp] theorem State.finish_cb (s : State) (c : BitVec 4) : (s.finish c).cb = s.cb := rfl
@[simp] theorem State.finish_cp (s : State) (c : BitVec 4) : (s.finish c).cp = s.cp := rfl
@[simp] theorem State.finish_px (s : State) (c : BitVec 4) : (s.finish c).px = s.px := rfl
@[simp] theorem State.finish_py (s : State) (c : BitVec 4) : (s.finish c).py = s.py := rfl
@[simp] theorem State.finish_ptag (s : State) (c : BitVec 4) : (s.finish c).ptag = s.ptag := rfl
@[simp] theorem State.finish_ie (s : State) (c : BitVec 4) : (s.finish c).ie = s.ie := rfl
@[simp] theorem State.finish_busy (s : State) (c : BitVec 4) : (s.finish c).busy = false := rfl
@[simp] theorem State.finish_done (s : State) (c : BitVec 4) : (s.finish c).done = true := rfl
@[simp] theorem State.finish_t (s : State) (c : BitVec 4) : (s.finish c).t = s.t := rfl
@[simp] theorem State.finish_ovr (s : State) (c : BitVec 4) : (s.finish c).ovr = s.ovr := rfl
@[simp] theorem State.finish_err (s : State) (c : BitVec 4) : (s.finish c).err = c := rfl
@[simp] theorem State.finish_cmd (s : State) (c : BitVec 4) : (s.finish c).cmd = s.cmd := rfl
@[simp] theorem State.finish_schedule (s : State) (c : BitVec 4) : (s.finish c).schedule = s.schedule := rfl
@[simp] theorem State.finish_readData (s : State) (c : BitVec 4) : (s.finish c).readData = s.readData := rfl
@[simp] theorem State.finish_draws (s : State) (c : BitVec 4) : (s.finish c).draws = s.draws := rfl

/-! `succeed` -/

@[simp] theorem State.succeed_build (s : State) : (s.succeed).build = s.build := rfl
@[simp] theorem State.succeed_r (s : State) : (s.succeed).r = s.r := rfl
@[simp] theorem State.succeed_ca (s : State) : (s.succeed).ca = s.ca := rfl
@[simp] theorem State.succeed_cb (s : State) : (s.succeed).cb = s.cb := rfl
@[simp] theorem State.succeed_cp (s : State) : (s.succeed).cp = s.cp := rfl
@[simp] theorem State.succeed_px (s : State) : (s.succeed).px = s.px := rfl
@[simp] theorem State.succeed_py (s : State) : (s.succeed).py = s.py := rfl
@[simp] theorem State.succeed_ptag (s : State) : (s.succeed).ptag = s.ptag := rfl
@[simp] theorem State.succeed_ie (s : State) : (s.succeed).ie = s.ie := rfl
@[simp] theorem State.succeed_busy (s : State) : (s.succeed).busy = false := rfl
@[simp] theorem State.succeed_done (s : State) : (s.succeed).done = true := rfl
@[simp] theorem State.succeed_t (s : State) : (s.succeed).t = s.t := rfl
@[simp] theorem State.succeed_ovr (s : State) : (s.succeed).ovr = s.ovr := rfl
@[simp] theorem State.succeed_err (s : State) : (s.succeed).err = 0 := rfl
@[simp] theorem State.succeed_cmd (s : State) : (s.succeed).cmd = s.cmd := rfl
@[simp] theorem State.succeed_schedule (s : State) : (s.succeed).schedule = s.schedule := rfl
@[simp] theorem State.succeed_readData (s : State) : (s.succeed).readData = s.readData := rfl
@[simp] theorem State.succeed_draws (s : State) : (s.succeed).draws = s.draws := rfl

/-! `raise` -/

@[simp] theorem State.raise_build (s : State) (e : Error) : (s.raise e).build = s.build := rfl
@[simp] theorem State.raise_r (s : State) (e : Error) : (s.raise e).r = s.r := rfl
@[simp] theorem State.raise_ca (s : State) (e : Error) : (s.raise e).ca = s.ca := rfl
@[simp] theorem State.raise_cb (s : State) (e : Error) : (s.raise e).cb = s.cb := rfl
@[simp] theorem State.raise_cp (s : State) (e : Error) : (s.raise e).cp = s.cp := rfl
@[simp] theorem State.raise_px (s : State) (e : Error) : (s.raise e).px = s.px := rfl
@[simp] theorem State.raise_py (s : State) (e : Error) : (s.raise e).py = s.py := rfl
@[simp] theorem State.raise_ptag (s : State) (e : Error) : (s.raise e).ptag = s.ptag := rfl
@[simp] theorem State.raise_ie (s : State) (e : Error) : (s.raise e).ie = s.ie := rfl
@[simp] theorem State.raise_busy (s : State) (e : Error) : (s.raise e).busy = false := rfl
@[simp] theorem State.raise_done (s : State) (e : Error) : (s.raise e).done = true := rfl
@[simp] theorem State.raise_t (s : State) (e : Error) : (s.raise e).t = s.t := rfl
@[simp] theorem State.raise_ovr (s : State) (e : Error) : (s.raise e).ovr = s.ovr := rfl
@[simp] theorem State.raise_err (s : State) (e : Error) : (s.raise e).err = e.code := rfl
@[simp] theorem State.raise_cmd (s : State) (e : Error) : (s.raise e).cmd = s.cmd := rfl
@[simp] theorem State.raise_schedule (s : State) (e : Error) : (s.raise e).schedule = s.schedule := rfl
@[simp] theorem State.raise_readData (s : State) (e : Error) : (s.raise e).readData = s.readData := rfl
@[simp] theorem State.raise_draws (s : State) (e : Error) : (s.raise e).draws = s.draws := rfl

/-! `accept` -/

@[simp] theorem State.accept_build (s : State) (d : Word) : (s.accept d).build = s.build := rfl
@[simp] theorem State.accept_r (s : State) (d : Word) : (s.accept d).r = s.r := rfl
@[simp] theorem State.accept_ca (s : State) (d : Word) : (s.accept d).ca = s.ca := rfl
@[simp] theorem State.accept_cb (s : State) (d : Word) : (s.accept d).cb = s.cb := rfl
@[simp] theorem State.accept_cp (s : State) (d : Word) : (s.accept d).cp = s.cp := rfl
@[simp] theorem State.accept_px (s : State) (d : Word) : (s.accept d).px = s.px := rfl
@[simp] theorem State.accept_py (s : State) (d : Word) : (s.accept d).py = s.py := rfl
@[simp] theorem State.accept_ptag (s : State) (d : Word) : (s.accept d).ptag = s.ptag := rfl
@[simp] theorem State.accept_ie (s : State) (d : Word) : (s.accept d).ie = s.ie := rfl
@[simp] theorem State.accept_busy (s : State) (d : Word) : (s.accept d).busy = true := rfl
@[simp] theorem State.accept_done (s : State) (d : Word) : (s.accept d).done = false := rfl
@[simp] theorem State.accept_t (s : State) (d : Word) : (s.accept d).t = s.t := rfl
@[simp] theorem State.accept_ovr (s : State) (d : Word) : (s.accept d).ovr = s.ovr := rfl
@[simp] theorem State.accept_err (s : State) (d : Word) : (s.accept d).err = 0 := rfl
@[simp] theorem State.accept_cmd (s : State) (d : Word) : (s.accept d).cmd = d := rfl
@[simp] theorem State.accept_schedule (s : State) (d : Word) : (s.accept d).schedule = s.schedule := rfl
@[simp] theorem State.accept_readData (s : State) (d : Word) : (s.accept d).readData = s.readData := rfl
@[simp] theorem State.accept_draws (s : State) (d : Word) : (s.accept d).draws = s.draws := rfl

/-! `placeCommand` -/

@[simp] theorem State.placeCommand_build (s : State) (d : Word) : (s.placeCommand d).build = s.build := rfl
@[simp] theorem State.placeCommand_r (s : State) (d : Word) : (s.placeCommand d).r = s.r := rfl
@[simp] theorem State.placeCommand_ca (s : State) (d : Word) : (s.placeCommand d).ca = s.ca := rfl
@[simp] theorem State.placeCommand_cb (s : State) (d : Word) : (s.placeCommand d).cb = s.cb := rfl
@[simp] theorem State.placeCommand_cp (s : State) (d : Word) : (s.placeCommand d).cp = s.cp := rfl
@[simp] theorem State.placeCommand_px (s : State) (d : Word) : (s.placeCommand d).px = s.px := rfl
@[simp] theorem State.placeCommand_py (s : State) (d : Word) : (s.placeCommand d).py = s.py := rfl
@[simp] theorem State.placeCommand_ptag (s : State) (d : Word) : (s.placeCommand d).ptag = s.ptag := rfl
@[simp] theorem State.placeCommand_ie (s : State) (d : Word) : (s.placeCommand d).ie = s.ie := rfl
@[simp] theorem State.placeCommand_busy (s : State) (d : Word) : (s.placeCommand d).busy = true := rfl
@[simp] theorem State.placeCommand_done (s : State) (d : Word) : (s.placeCommand d).done = false := rfl
@[simp] theorem State.placeCommand_t (s : State) (d : Word) : (s.placeCommand d).t = s.t := rfl
@[simp] theorem State.placeCommand_ovr (s : State) (d : Word) : (s.placeCommand d).ovr = s.ovr := rfl
@[simp] theorem State.placeCommand_err (s : State) (d : Word) : (s.placeCommand d).err = 0 := rfl
@[simp] theorem State.placeCommand_cmd (s : State) (d : Word) : (s.placeCommand d).cmd = d := rfl
@[simp] theorem State.placeCommand_schedule (s : State) (d : Word) : (s.placeCommand d).schedule = [] := rfl
@[simp] theorem State.placeCommand_readData (s : State) (d : Word) : (s.placeCommand d).readData = s.readData := rfl
@[simp] theorem State.placeCommand_draws (s : State) (d : Word) : (s.placeCommand d).draws = s.draws := rfl

/-! `resetEngine` -/

@[simp] theorem State.resetEngine_build (s : State) : (s.resetEngine).build = s.build := rfl
@[simp] theorem State.resetEngine_r (s : State) : (s.resetEngine).r = Vector.replicate 8 (0#s.build.W) := rfl
@[simp] theorem State.resetEngine_ca (s : State) : (s.resetEngine).ca = 0#s.build.W := rfl
@[simp] theorem State.resetEngine_cb (s : State) : (s.resetEngine).cb = 0#s.build.W := rfl
@[simp] theorem State.resetEngine_cp (s : State) : (s.resetEngine).cp = 0#s.build.W := rfl
@[simp] theorem State.resetEngine_px (s : State) : (s.resetEngine).px = Vector.replicate 4 (0#s.build.W) := rfl
@[simp] theorem State.resetEngine_py (s : State) : (s.resetEngine).py = Vector.replicate 4 (0#s.build.W) := rfl
@[simp] theorem State.resetEngine_ptag (s : State) : (s.resetEngine).ptag = 0 := rfl
@[simp] theorem State.resetEngine_ie (s : State) : (s.resetEngine).ie = false := rfl
@[simp] theorem State.resetEngine_busy (s : State) : (s.resetEngine).busy = false := rfl
@[simp] theorem State.resetEngine_done (s : State) : (s.resetEngine).done = false := rfl
@[simp] theorem State.resetEngine_t (s : State) : (s.resetEngine).t = false := rfl
@[simp] theorem State.resetEngine_ovr (s : State) : (s.resetEngine).ovr = false := rfl
@[simp] theorem State.resetEngine_err (s : State) : (s.resetEngine).err = 0 := rfl
@[simp] theorem State.resetEngine_cmd (s : State) : (s.resetEngine).cmd = 0 := rfl
@[simp] theorem State.resetEngine_schedule (s : State) : (s.resetEngine).schedule = s.schedule := rfl
@[simp] theorem State.resetEngine_readData (s : State) : (s.resetEngine).readData = s.readData := rfl
@[simp] theorem State.resetEngine_draws (s : State) : (s.resetEngine).draws = s.draws := rfl

/-! `setTag` -/

@[simp] theorem State.setTag_build (s : State) (j : PIdx) (b : Bool) : (s.setTag j b).build = s.build := rfl
@[simp] theorem State.setTag_r (s : State) (j : PIdx) (b : Bool) : (s.setTag j b).r = s.r := rfl
@[simp] theorem State.setTag_ca (s : State) (j : PIdx) (b : Bool) : (s.setTag j b).ca = s.ca := rfl
@[simp] theorem State.setTag_cb (s : State) (j : PIdx) (b : Bool) : (s.setTag j b).cb = s.cb := rfl
@[simp] theorem State.setTag_cp (s : State) (j : PIdx) (b : Bool) : (s.setTag j b).cp = s.cp := rfl
@[simp] theorem State.setTag_px (s : State) (j : PIdx) (b : Bool) : (s.setTag j b).px = s.px := rfl
@[simp] theorem State.setTag_py (s : State) (j : PIdx) (b : Bool) : (s.setTag j b).py = s.py := rfl
@[simp] theorem State.setTag_ie (s : State) (j : PIdx) (b : Bool) : (s.setTag j b).ie = s.ie := rfl
@[simp] theorem State.setTag_busy (s : State) (j : PIdx) (b : Bool) : (s.setTag j b).busy = s.busy := rfl
@[simp] theorem State.setTag_done (s : State) (j : PIdx) (b : Bool) : (s.setTag j b).done = s.done := rfl
@[simp] theorem State.setTag_t (s : State) (j : PIdx) (b : Bool) : (s.setTag j b).t = s.t := rfl
@[simp] theorem State.setTag_ovr (s : State) (j : PIdx) (b : Bool) : (s.setTag j b).ovr = s.ovr := rfl
@[simp] theorem State.setTag_err (s : State) (j : PIdx) (b : Bool) : (s.setTag j b).err = s.err := rfl
@[simp] theorem State.setTag_cmd (s : State) (j : PIdx) (b : Bool) : (s.setTag j b).cmd = s.cmd := rfl
@[simp] theorem State.setTag_schedule (s : State) (j : PIdx) (b : Bool) : (s.setTag j b).schedule = s.schedule := rfl
@[simp] theorem State.setTag_readData (s : State) (j : PIdx) (b : Bool) : (s.setTag j b).readData = s.readData := rfl
@[simp] theorem State.setTag_draws (s : State) (j : PIdx) (b : Bool) : (s.setTag j b).draws = s.draws := rfl

/-! `setPt` -/

@[simp] theorem State.setPt_build (s : State) (j : PIdx) (q : Point) : (s.setPt j q).build = s.build := rfl
@[simp] theorem State.setPt_r (s : State) (j : PIdx) (q : Point) : (s.setPt j q).r = s.r := rfl
@[simp] theorem State.setPt_ca (s : State) (j : PIdx) (q : Point) : (s.setPt j q).ca = s.ca := rfl
@[simp] theorem State.setPt_cb (s : State) (j : PIdx) (q : Point) : (s.setPt j q).cb = s.cb := rfl
@[simp] theorem State.setPt_cp (s : State) (j : PIdx) (q : Point) : (s.setPt j q).cp = s.cp := rfl
@[simp] theorem State.setPt_px (s : State) (j : PIdx) (q : Point) : (s.setPt j q).px = s.px.set j.val (pointImage s.build.W q).2.1 := rfl
@[simp] theorem State.setPt_py (s : State) (j : PIdx) (q : Point) : (s.setPt j q).py = s.py.set j.val (pointImage s.build.W q).2.2 := rfl
@[simp] theorem State.setPt_ptag (s : State) (j : PIdx) (q : Point) : (s.setPt j q).ptag = (s.setTag j (pointImage s.build.W q).1).ptag := rfl
@[simp] theorem State.setPt_ie (s : State) (j : PIdx) (q : Point) : (s.setPt j q).ie = s.ie := rfl
@[simp] theorem State.setPt_busy (s : State) (j : PIdx) (q : Point) : (s.setPt j q).busy = s.busy := rfl
@[simp] theorem State.setPt_done (s : State) (j : PIdx) (q : Point) : (s.setPt j q).done = s.done := rfl
@[simp] theorem State.setPt_t (s : State) (j : PIdx) (q : Point) : (s.setPt j q).t = s.t := rfl
@[simp] theorem State.setPt_ovr (s : State) (j : PIdx) (q : Point) : (s.setPt j q).ovr = s.ovr := rfl
@[simp] theorem State.setPt_err (s : State) (j : PIdx) (q : Point) : (s.setPt j q).err = s.err := rfl
@[simp] theorem State.setPt_cmd (s : State) (j : PIdx) (q : Point) : (s.setPt j q).cmd = s.cmd := rfl
@[simp] theorem State.setPt_schedule (s : State) (j : PIdx) (q : Point) : (s.setPt j q).schedule = s.schedule := rfl
@[simp] theorem State.setPt_readData (s : State) (j : PIdx) (q : Point) : (s.setPt j q).readData = s.readData := rfl
@[simp] theorem State.setPt_draws (s : State) (j : PIdx) (q : Point) : (s.setPt j q).draws = s.draws := rfl

/-! `setWide` -/

@[simp] theorem State.setWide_build (s : State) (v : WideReg) (x : BitVec s.build.W) : (s.setWide v x).build = s.build := rfl
@[simp] theorem State.setWide_ca (s : State) (v : WideReg) (x : BitVec s.build.W) : (s.setWide v x).ca = if v = .ca then x else s.ca := rfl
@[simp] theorem State.setWide_cb (s : State) (v : WideReg) (x : BitVec s.build.W) : (s.setWide v x).cb = if v = .cb then x else s.cb := rfl
@[simp] theorem State.setWide_cp (s : State) (v : WideReg) (x : BitVec s.build.W) : (s.setWide v x).cp = if v = .cp then x else s.cp := rfl
@[simp] theorem State.setWide_ptag (s : State) (v : WideReg) (x : BitVec s.build.W) : (s.setWide v x).ptag = s.ptag := rfl
@[simp] theorem State.setWide_ie (s : State) (v : WideReg) (x : BitVec s.build.W) : (s.setWide v x).ie = s.ie := rfl
@[simp] theorem State.setWide_busy (s : State) (v : WideReg) (x : BitVec s.build.W) : (s.setWide v x).busy = s.busy := rfl
@[simp] theorem State.setWide_done (s : State) (v : WideReg) (x : BitVec s.build.W) : (s.setWide v x).done = s.done := rfl
@[simp] theorem State.setWide_t (s : State) (v : WideReg) (x : BitVec s.build.W) : (s.setWide v x).t = s.t := rfl
@[simp] theorem State.setWide_ovr (s : State) (v : WideReg) (x : BitVec s.build.W) : (s.setWide v x).ovr = s.ovr := rfl
@[simp] theorem State.setWide_err (s : State) (v : WideReg) (x : BitVec s.build.W) : (s.setWide v x).err = s.err := rfl
@[simp] theorem State.setWide_cmd (s : State) (v : WideReg) (x : BitVec s.build.W) : (s.setWide v x).cmd = s.cmd := rfl
@[simp] theorem State.setWide_schedule (s : State) (v : WideReg) (x : BitVec s.build.W) : (s.setWide v x).schedule = s.schedule := rfl
@[simp] theorem State.setWide_readData (s : State) (v : WideReg) (x : BitVec s.build.W) : (s.setWide v x).readData = s.readData := rfl
@[simp] theorem State.setWide_draws (s : State) (v : WideReg) (x : BitVec s.build.W) : (s.setWide v x).draws = s.draws := rfl

/-! `setInt` -/

@[simp] theorem State.setInt_build (s : State) (v : WideReg) (n : Int) : (s.setInt v n).build = s.build := rfl
@[simp] theorem State.setInt_ca (s : State) (v : WideReg) (n : Int) : (s.setInt v n).ca = if v = .ca then enc s.build.W n else s.ca := rfl
@[simp] theorem State.setInt_cb (s : State) (v : WideReg) (n : Int) : (s.setInt v n).cb = if v = .cb then enc s.build.W n else s.cb := rfl
@[simp] theorem State.setInt_cp (s : State) (v : WideReg) (n : Int) : (s.setInt v n).cp = if v = .cp then enc s.build.W n else s.cp := rfl
@[simp] theorem State.setInt_ptag (s : State) (v : WideReg) (n : Int) : (s.setInt v n).ptag = s.ptag := rfl
@[simp] theorem State.setInt_ie (s : State) (v : WideReg) (n : Int) : (s.setInt v n).ie = s.ie := rfl
@[simp] theorem State.setInt_busy (s : State) (v : WideReg) (n : Int) : (s.setInt v n).busy = s.busy := rfl
@[simp] theorem State.setInt_done (s : State) (v : WideReg) (n : Int) : (s.setInt v n).done = s.done := rfl
@[simp] theorem State.setInt_t (s : State) (v : WideReg) (n : Int) : (s.setInt v n).t = s.t := rfl
@[simp] theorem State.setInt_ovr (s : State) (v : WideReg) (n : Int) : (s.setInt v n).ovr = s.ovr := rfl
@[simp] theorem State.setInt_err (s : State) (v : WideReg) (n : Int) : (s.setInt v n).err = s.err := rfl
@[simp] theorem State.setInt_cmd (s : State) (v : WideReg) (n : Int) : (s.setInt v n).cmd = s.cmd := rfl
@[simp] theorem State.setInt_schedule (s : State) (v : WideReg) (n : Int) : (s.setInt v n).schedule = s.schedule := rfl
@[simp] theorem State.setInt_readData (s : State) (v : WideReg) (n : Int) : (s.setInt v n).readData = s.readData := rfl
@[simp] theorem State.setInt_draws (s : State) (v : WideReg) (n : Int) : (s.setInt v n).draws = s.draws := rfl

/-! `setX` -/

@[simp] theorem State.setX_build (s : State) (i : RIdx) (n : Int) : (s.setX i n).build = s.build := rfl
@[simp] theorem State.setX_r (s : State) (i : RIdx) (n : Int) : (s.setX i n).r = s.r.set i.val (enc s.build.W n) := rfl
@[simp] theorem State.setX_ca (s : State) (i : RIdx) (n : Int) : (s.setX i n).ca = s.ca := rfl
@[simp] theorem State.setX_cb (s : State) (i : RIdx) (n : Int) : (s.setX i n).cb = s.cb := rfl
@[simp] theorem State.setX_cp (s : State) (i : RIdx) (n : Int) : (s.setX i n).cp = s.cp := rfl
@[simp] theorem State.setX_px (s : State) (i : RIdx) (n : Int) : (s.setX i n).px = s.px := rfl
@[simp] theorem State.setX_py (s : State) (i : RIdx) (n : Int) : (s.setX i n).py = s.py := rfl
@[simp] theorem State.setX_ptag (s : State) (i : RIdx) (n : Int) : (s.setX i n).ptag = s.ptag := rfl
@[simp] theorem State.setX_ie (s : State) (i : RIdx) (n : Int) : (s.setX i n).ie = s.ie := rfl
@[simp] theorem State.setX_busy (s : State) (i : RIdx) (n : Int) : (s.setX i n).busy = s.busy := rfl
@[simp] theorem State.setX_done (s : State) (i : RIdx) (n : Int) : (s.setX i n).done = s.done := rfl
@[simp] theorem State.setX_t (s : State) (i : RIdx) (n : Int) : (s.setX i n).t = s.t := rfl
@[simp] theorem State.setX_ovr (s : State) (i : RIdx) (n : Int) : (s.setX i n).ovr = s.ovr := rfl
@[simp] theorem State.setX_err (s : State) (i : RIdx) (n : Int) : (s.setX i n).err = s.err := rfl
@[simp] theorem State.setX_cmd (s : State) (i : RIdx) (n : Int) : (s.setX i n).cmd = s.cmd := rfl
@[simp] theorem State.setX_schedule (s : State) (i : RIdx) (n : Int) : (s.setX i n).schedule = s.schedule := rfl
@[simp] theorem State.setX_readData (s : State) (i : RIdx) (n : Int) : (s.setX i n).readData = s.readData := rfl
@[simp] theorem State.setX_draws (s : State) (i : RIdx) (n : Int) : (s.setX i n).draws = s.draws := rfl

/-! `setIe` -/

@[simp] theorem State.setIe_build (s : State) (b : Bool) : (s.setIe b).build = s.build := rfl
@[simp] theorem State.setIe_r (s : State) (b : Bool) : (s.setIe b).r = s.r := rfl
@[simp] theorem State.setIe_ca (s : State) (b : Bool) : (s.setIe b).ca = s.ca := rfl
@[simp] theorem State.setIe_cb (s : State) (b : Bool) : (s.setIe b).cb = s.cb := rfl
@[simp] theorem State.setIe_cp (s : State) (b : Bool) : (s.setIe b).cp = s.cp := rfl
@[simp] theorem State.setIe_px (s : State) (b : Bool) : (s.setIe b).px = s.px := rfl
@[simp] theorem State.setIe_py (s : State) (b : Bool) : (s.setIe b).py = s.py := rfl
@[simp] theorem State.setIe_ptag (s : State) (b : Bool) : (s.setIe b).ptag = s.ptag := rfl
@[simp] theorem State.setIe_ie (s : State) (b : Bool) : (s.setIe b).ie = b := rfl
@[simp] theorem State.setIe_busy (s : State) (b : Bool) : (s.setIe b).busy = s.busy := rfl
@[simp] theorem State.setIe_done (s : State) (b : Bool) : (s.setIe b).done = s.done := rfl
@[simp] theorem State.setIe_t (s : State) (b : Bool) : (s.setIe b).t = s.t := rfl
@[simp] theorem State.setIe_ovr (s : State) (b : Bool) : (s.setIe b).ovr = s.ovr := rfl
@[simp] theorem State.setIe_err (s : State) (b : Bool) : (s.setIe b).err = s.err := rfl
@[simp] theorem State.setIe_cmd (s : State) (b : Bool) : (s.setIe b).cmd = s.cmd := rfl
@[simp] theorem State.setIe_schedule (s : State) (b : Bool) : (s.setIe b).schedule = s.schedule := rfl
@[simp] theorem State.setIe_readData (s : State) (b : Bool) : (s.setIe b).readData = s.readData := rfl
@[simp] theorem State.setIe_draws (s : State) (b : Bool) : (s.setIe b).draws = s.draws := rfl

/-! `writeStatus` -/

@[simp] theorem State.writeStatus_build (s : State) (d : Word) : (s.writeStatus d).build = s.build := rfl
@[simp] theorem State.writeStatus_r (s : State) (d : Word) : (s.writeStatus d).r = s.r := rfl
@[simp] theorem State.writeStatus_ca (s : State) (d : Word) : (s.writeStatus d).ca = s.ca := rfl
@[simp] theorem State.writeStatus_cb (s : State) (d : Word) : (s.writeStatus d).cb = s.cb := rfl
@[simp] theorem State.writeStatus_cp (s : State) (d : Word) : (s.writeStatus d).cp = s.cp := rfl
@[simp] theorem State.writeStatus_px (s : State) (d : Word) : (s.writeStatus d).px = s.px := rfl
@[simp] theorem State.writeStatus_py (s : State) (d : Word) : (s.writeStatus d).py = s.py := rfl
@[simp] theorem State.writeStatus_ptag (s : State) (d : Word) : (s.writeStatus d).ptag = s.ptag := rfl
@[simp] theorem State.writeStatus_ie (s : State) (d : Word) : (s.writeStatus d).ie = s.ie := rfl
@[simp] theorem State.writeStatus_busy (s : State) (d : Word) : (s.writeStatus d).busy = s.busy := rfl
@[simp] theorem State.writeStatus_done (s : State) (d : Word) : (s.writeStatus d).done = (s.done && !d.getLsbD 1) := rfl
@[simp] theorem State.writeStatus_t (s : State) (d : Word) : (s.writeStatus d).t = s.t := rfl
@[simp] theorem State.writeStatus_ovr (s : State) (d : Word) : (s.writeStatus d).ovr = (s.ovr && !d.getLsbD 3) := rfl
@[simp] theorem State.writeStatus_err (s : State) (d : Word) : (s.writeStatus d).err = s.err := rfl
@[simp] theorem State.writeStatus_cmd (s : State) (d : Word) : (s.writeStatus d).cmd = s.cmd := rfl
@[simp] theorem State.writeStatus_schedule (s : State) (d : Word) : (s.writeStatus d).schedule = s.schedule := rfl
@[simp] theorem State.writeStatus_readData (s : State) (d : Word) : (s.writeStatus d).readData = s.readData := rfl
@[simp] theorem State.writeStatus_draws (s : State) (d : Word) : (s.writeStatus d).draws = s.draws := rfl

/-! `writePtag` -/

@[simp] theorem State.writePtag_build (s : State) (d : Word) : (s.writePtag d).build = s.build := rfl
@[simp] theorem State.writePtag_r (s : State) (d : Word) : (s.writePtag d).r = s.r := rfl
@[simp] theorem State.writePtag_ca (s : State) (d : Word) : (s.writePtag d).ca = s.ca := rfl
@[simp] theorem State.writePtag_cb (s : State) (d : Word) : (s.writePtag d).cb = s.cb := rfl
@[simp] theorem State.writePtag_cp (s : State) (d : Word) : (s.writePtag d).cp = s.cp := rfl
@[simp] theorem State.writePtag_px (s : State) (d : Word) : (s.writePtag d).px = s.px := rfl
@[simp] theorem State.writePtag_py (s : State) (d : Word) : (s.writePtag d).py = s.py := rfl
@[simp] theorem State.writePtag_ptag (s : State) (d : Word) : (s.writePtag d).ptag = d.extractLsb' 0 4 := rfl
@[simp] theorem State.writePtag_ie (s : State) (d : Word) : (s.writePtag d).ie = s.ie := rfl
@[simp] theorem State.writePtag_busy (s : State) (d : Word) : (s.writePtag d).busy = s.busy := rfl
@[simp] theorem State.writePtag_done (s : State) (d : Word) : (s.writePtag d).done = s.done := rfl
@[simp] theorem State.writePtag_t (s : State) (d : Word) : (s.writePtag d).t = s.t := rfl
@[simp] theorem State.writePtag_ovr (s : State) (d : Word) : (s.writePtag d).ovr = s.ovr := rfl
@[simp] theorem State.writePtag_err (s : State) (d : Word) : (s.writePtag d).err = s.err := rfl
@[simp] theorem State.writePtag_cmd (s : State) (d : Word) : (s.writePtag d).cmd = s.cmd := rfl
@[simp] theorem State.writePtag_schedule (s : State) (d : Word) : (s.writePtag d).schedule = s.schedule := rfl
@[simp] theorem State.writePtag_readData (s : State) (d : Word) : (s.writePtag d).readData = s.readData := rfl
@[simp] theorem State.writePtag_draws (s : State) (d : Word) : (s.writePtag d).draws = s.draws := rfl

/-! `overrun` -/

@[simp] theorem State.overrun_build (s : State) : (s.overrun).build = s.build := rfl
@[simp] theorem State.overrun_r (s : State) : (s.overrun).r = s.r := rfl
@[simp] theorem State.overrun_ca (s : State) : (s.overrun).ca = s.ca := rfl
@[simp] theorem State.overrun_cb (s : State) : (s.overrun).cb = s.cb := rfl
@[simp] theorem State.overrun_cp (s : State) : (s.overrun).cp = s.cp := rfl
@[simp] theorem State.overrun_px (s : State) : (s.overrun).px = s.px := rfl
@[simp] theorem State.overrun_py (s : State) : (s.overrun).py = s.py := rfl
@[simp] theorem State.overrun_ptag (s : State) : (s.overrun).ptag = s.ptag := rfl
@[simp] theorem State.overrun_ie (s : State) : (s.overrun).ie = s.ie := rfl
@[simp] theorem State.overrun_busy (s : State) : (s.overrun).busy = s.busy := rfl
@[simp] theorem State.overrun_done (s : State) : (s.overrun).done = s.done := rfl
@[simp] theorem State.overrun_t (s : State) : (s.overrun).t = s.t := rfl
@[simp] theorem State.overrun_ovr (s : State) : (s.overrun).ovr = true := rfl
@[simp] theorem State.overrun_err (s : State) : (s.overrun).err = s.err := rfl
@[simp] theorem State.overrun_cmd (s : State) : (s.overrun).cmd = s.cmd := rfl
@[simp] theorem State.overrun_schedule (s : State) : (s.overrun).schedule = s.schedule := rfl
@[simp] theorem State.overrun_readData (s : State) : (s.overrun).readData = s.readData := rfl
@[simp] theorem State.overrun_draws (s : State) : (s.overrun).draws = s.draws := rfl

/-! `answerRead` -/

@[simp] theorem State.answerRead_build (s : State) (w : Word) : (s.answerRead w).build = s.build := rfl
@[simp] theorem State.answerRead_r (s : State) (w : Word) : (s.answerRead w).r = s.r := rfl
@[simp] theorem State.answerRead_ca (s : State) (w : Word) : (s.answerRead w).ca = s.ca := rfl
@[simp] theorem State.answerRead_cb (s : State) (w : Word) : (s.answerRead w).cb = s.cb := rfl
@[simp] theorem State.answerRead_cp (s : State) (w : Word) : (s.answerRead w).cp = s.cp := rfl
@[simp] theorem State.answerRead_px (s : State) (w : Word) : (s.answerRead w).px = s.px := rfl
@[simp] theorem State.answerRead_py (s : State) (w : Word) : (s.answerRead w).py = s.py := rfl
@[simp] theorem State.answerRead_ptag (s : State) (w : Word) : (s.answerRead w).ptag = s.ptag := rfl
@[simp] theorem State.answerRead_ie (s : State) (w : Word) : (s.answerRead w).ie = s.ie := rfl
@[simp] theorem State.answerRead_busy (s : State) (w : Word) : (s.answerRead w).busy = s.busy := rfl
@[simp] theorem State.answerRead_done (s : State) (w : Word) : (s.answerRead w).done = s.done := rfl
@[simp] theorem State.answerRead_t (s : State) (w : Word) : (s.answerRead w).t = s.t := rfl
@[simp] theorem State.answerRead_ovr (s : State) (w : Word) : (s.answerRead w).ovr = s.ovr := rfl
@[simp] theorem State.answerRead_err (s : State) (w : Word) : (s.answerRead w).err = s.err := rfl
@[simp] theorem State.answerRead_cmd (s : State) (w : Word) : (s.answerRead w).cmd = s.cmd := rfl
@[simp] theorem State.answerRead_schedule (s : State) (w : Word) : (s.answerRead w).schedule = s.schedule := rfl
@[simp] theorem State.answerRead_readData (s : State) (w : Word) : (s.answerRead w).readData = w := rfl
@[simp] theorem State.answerRead_draws (s : State) (w : Word) : (s.answerRead w).draws = s.draws := rfl

/-! `setSchedule` -/

@[simp] theorem State.setSchedule_build (s : State) (es : List Event) : (s.setSchedule es).build = s.build := rfl
@[simp] theorem State.setSchedule_r (s : State) (es : List Event) : (s.setSchedule es).r = s.r := rfl
@[simp] theorem State.setSchedule_ca (s : State) (es : List Event) : (s.setSchedule es).ca = s.ca := rfl
@[simp] theorem State.setSchedule_cb (s : State) (es : List Event) : (s.setSchedule es).cb = s.cb := rfl
@[simp] theorem State.setSchedule_cp (s : State) (es : List Event) : (s.setSchedule es).cp = s.cp := rfl
@[simp] theorem State.setSchedule_px (s : State) (es : List Event) : (s.setSchedule es).px = s.px := rfl
@[simp] theorem State.setSchedule_py (s : State) (es : List Event) : (s.setSchedule es).py = s.py := rfl
@[simp] theorem State.setSchedule_ptag (s : State) (es : List Event) : (s.setSchedule es).ptag = s.ptag := rfl
@[simp] theorem State.setSchedule_ie (s : State) (es : List Event) : (s.setSchedule es).ie = s.ie := rfl
@[simp] theorem State.setSchedule_busy (s : State) (es : List Event) : (s.setSchedule es).busy = s.busy := rfl
@[simp] theorem State.setSchedule_done (s : State) (es : List Event) : (s.setSchedule es).done = s.done := rfl
@[simp] theorem State.setSchedule_t (s : State) (es : List Event) : (s.setSchedule es).t = s.t := rfl
@[simp] theorem State.setSchedule_ovr (s : State) (es : List Event) : (s.setSchedule es).ovr = s.ovr := rfl
@[simp] theorem State.setSchedule_err (s : State) (es : List Event) : (s.setSchedule es).err = s.err := rfl
@[simp] theorem State.setSchedule_cmd (s : State) (es : List Event) : (s.setSchedule es).cmd = s.cmd := rfl
@[simp] theorem State.setSchedule_schedule (s : State) (es : List Event) : (s.setSchedule es).schedule = es := rfl
@[simp] theorem State.setSchedule_readData (s : State) (es : List Event) : (s.setSchedule es).readData = s.readData := rfl
@[simp] theorem State.setSchedule_draws (s : State) (es : List Event) : (s.setSchedule es).draws = s.draws := rfl

/-! `setDraws` -/

@[simp] theorem State.setDraws_build (s : State) (k : Nat) : (s.setDraws k).build = s.build := rfl
@[simp] theorem State.setDraws_r (s : State) (k : Nat) : (s.setDraws k).r = s.r := rfl
@[simp] theorem State.setDraws_ca (s : State) (k : Nat) : (s.setDraws k).ca = s.ca := rfl
@[simp] theorem State.setDraws_cb (s : State) (k : Nat) : (s.setDraws k).cb = s.cb := rfl
@[simp] theorem State.setDraws_cp (s : State) (k : Nat) : (s.setDraws k).cp = s.cp := rfl
@[simp] theorem State.setDraws_px (s : State) (k : Nat) : (s.setDraws k).px = s.px := rfl
@[simp] theorem State.setDraws_py (s : State) (k : Nat) : (s.setDraws k).py = s.py := rfl
@[simp] theorem State.setDraws_ptag (s : State) (k : Nat) : (s.setDraws k).ptag = s.ptag := rfl
@[simp] theorem State.setDraws_ie (s : State) (k : Nat) : (s.setDraws k).ie = s.ie := rfl
@[simp] theorem State.setDraws_busy (s : State) (k : Nat) : (s.setDraws k).busy = s.busy := rfl
@[simp] theorem State.setDraws_done (s : State) (k : Nat) : (s.setDraws k).done = s.done := rfl
@[simp] theorem State.setDraws_t (s : State) (k : Nat) : (s.setDraws k).t = s.t := rfl
@[simp] theorem State.setDraws_ovr (s : State) (k : Nat) : (s.setDraws k).ovr = s.ovr := rfl
@[simp] theorem State.setDraws_err (s : State) (k : Nat) : (s.setDraws k).err = s.err := rfl
@[simp] theorem State.setDraws_cmd (s : State) (k : Nat) : (s.setDraws k).cmd = s.cmd := rfl
@[simp] theorem State.setDraws_schedule (s : State) (k : Nat) : (s.setDraws k).schedule = s.schedule := rfl
@[simp] theorem State.setDraws_readData (s : State) (k : Nat) : (s.setDraws k).readData = s.readData := rfl
@[simp] theorem State.setDraws_draws (s : State) (k : Nat) : (s.setDraws k).draws = k := rfl

end Sys2Proof.Machine
end

