-- ==== Sys2Proof/Laws/Operands.lean ====
section
/-! SUPPORT. What the operand forms do: integers and patterns (spec/00_scope.md R9), reading a register after a write
(R16, spec/10_state.md R25, R26). -/

namespace Sys2Proof.Machine

/-- The width of a wide register is at least 64. -/
theorem Config.Build.W_pos (b : Config.Build) : 64 ≤ b.W := by
  have := b.two_le_limbs
  simp only [Config.Build.W]
  omega

/-- `fits` is the range of R9. -/
theorem fits_iff {w : Nat} {n : Int} : fits w n = true ↔ -(2 ^ (w - 1)) ≤ n ∧ n ≤ 2 ^ (w - 1) - 1 := by
  simp [fits]

/-- `sint(enc(n)) = n` for `n` in range (R9). -/
theorem sint_enc {w : Nat} (hw : 0 < w) {n : Int} (h : fits w n = true) : sint (enc w n) = n := by
  obtain ⟨h1, h2⟩ := fits_iff.1 h
  have hp : (2 : Int) ^ w = 2 * 2 ^ (w - 1) := by
    obtain ⟨k, rfl⟩ : ∃ k, w = k + 1 := ⟨w - 1, by omega⟩
    simp [pow_succ]; ring
  rw [sint, enc, BitVec.toInt_ofInt]
  refine Int.bmod_eq_of_le ?_ ?_ <;> push_cast <;> omega

/-- Every pattern is the pattern of its integer (R9). -/
theorem enc_sint {w : Nat} (v : BitVec w) : enc w (sint v) = v := BitVec.ofInt_toInt

/-- A wide register after a write to one of them: the written value there, the old value elsewhere. -/
theorem State.wide_setWide (s : State) (v v' : WideReg) (x : BitVec s.build.W) :
    (s.setWide v x).wide v' = if v' = v then x else s.wide v' := by
  cases v <;> cases v' <;>
    simp [State.wide, State.setWide, Vector.getElem_set, Fin.ext_iff, eq_comm]

/-- The integers of the wide registers after a write to one of them. -/
@[simp] theorem State.int_setWide (s : State) (v v' : WideReg) (x : BitVec s.build.W) :
    (s.setWide v x).int v' = if v' = v then sint x else s.int v' := by
  rw [State.int, State.wide_setWide]
  split <;> rfl

/-- The tag of a point register after a write to one of them. -/
@[simp] theorem State.tag_setTag (s : State) (j j' : PIdx) (b : Bool) :
    (s.setTag j b).tag j' = if j' = j then b else s.tag j' := by
  have key : ∀ (p : BitVec 4) (j j' : Fin 4) (b : Bool),
      (p &&& ~~~(1#4 <<< j.val) ||| (BitVec.ofBool b).setWidth 4 <<< j.val).getLsbD j'.val
        = if j' = j then b else p.getLsbD j'.val := by decide
  exact key s.ptag j j' b

/-- The tag after a point write (R26). -/
@[simp] theorem State.tag_setPt (s : State) (j j' : PIdx) (q : Point) :
    (s.setPt j q).tag j' = if j' = j then (pointImage s.build.W q).1 else s.tag j' :=
  State.tag_setTag s j j' _

/-- A wide register after a point write (R26): only the two coordinates of that point register change. -/
theorem State.wide_setPt (s : State) (j : PIdx) (q : Point) (v : WideReg) :
    (s.setPt j q).wide v =
      if v = .px j then (pointImage s.build.W q).2.1
      else if v = .py j then (pointImage s.build.W q).2.2 else s.wide v := by
  cases v <;> simp [State.wide, State.setPt, State.setTag, Vector.getElem_set, Fin.ext_iff, eq_comm]

/-- The integers of the wide registers after a point write (R26). -/
@[simp] theorem State.int_setPt (s : State) (j : PIdx) (q : Point) (v : WideReg) :
    (s.setPt j q).int v =
      if v = .px j then sint (pointImage s.build.W q).2.1
      else if v = .py j then sint (pointImage s.build.W q).2.2 else s.int v := by
  rw [State.int, State.wide_setPt]
  split
  · rfl
  · split <;> rfl

/-- The integers of the wide registers depend on the wide registers only: the ends of a command keep them. -/
@[simp] theorem State.int_finish (s : State) (c : BitVec 4) (v : WideReg) : (s.finish c).int v = s.int v := by
  cases v <;> rfl

@[simp] theorem State.int_succeed (s : State) (v : WideReg) : s.succeed.int v = s.int v := s.int_finish 0 v

@[simp] theorem State.int_raise (s : State) (e : Error) (v : WideReg) : (s.raise e).int v = s.int v :=
  s.int_finish e.code v

@[simp] theorem State.int_setT (s : State) (c : Bool) (v : WideReg) : (s.setT c).int v = s.int v := by
  cases v <;> rfl

@[simp] theorem State.int_accept (s : State) (d : Word) (v : WideReg) : (s.accept d).int v = s.int v := by
  cases v <;> rfl

@[simp] theorem State.tag_finish (s : State) (c : BitVec 4) (j : PIdx) : (s.finish c).tag j = s.tag j := rfl

@[simp] theorem State.tag_succeed (s : State) (j : PIdx) : s.succeed.tag j = s.tag j := rfl

@[simp] theorem State.tag_raise (s : State) (e : Error) (j : PIdx) : (s.raise e).tag j = s.tag j := rfl

@[simp] theorem State.tag_setT (s : State) (c : Bool) (j : PIdx) : (s.setT c).tag j = s.tag j := rfl

@[simp] theorem State.tag_setWide (s : State) (v : WideReg) (x : BitVec s.build.W) (j : PIdx) :
    (s.setWide v x).tag j = s.tag j := rfl

/-- The integer registers after `x[i] <- n` with `n` in range (R16). -/
theorem State.x_setX (s : State) (i i' : RIdx) {n : Int} (h : fits s.build.W n = true) :
    (s.setX i n).x i' = if i' = i then n else s.x i' := by
  have hw : 0 < s.build.W := by have := Config.Build.W_pos s.build; omega
  simp [State.x, State.setX, State.setInt, sint_enc hw h]

/-- The point registers after `pt[j] <- Q` with coordinates in the register range (R26). -/
theorem State.pt_setPt (s : State) (j j' : PIdx) (q : Point)
    (h : ∀ x y, q = .aff x y → fits s.build.W x = true ∧ fits s.build.W y = true) :
    (s.setPt j q).pt j' = if j' = j then q else s.pt j' := by
  have hw : 0 < s.build.W := by have := Config.Build.W_pos s.build; omega
  by_cases hj : j' = j
  · subst hj
    cases q with
    | inf => simp [State.pt, pointImage]
    | aff x y =>
      obtain ⟨hx, hy⟩ := h x y rfl
      simp [State.pt, pointImage, sint_enc hw hx, sint_enc hw hy]
  · simp [State.pt, hj]

end Sys2Proof.Machine
end

