-- ==== Sys2Proof/Laws/Ops.lean ====
section
/-! SUPPORT. Everything the shared operations can do, said once: the two ends of a checked command, a guarded write, a
write to the window, an event, a step. -/

namespace Sys2Proof.Machine

/-- The shared shape of the EC commands: the check passed and the command succeeded, or it was rejected. -/
theorem State.ecChecked_cases {s s' t : State} {qs : List Point} (h : s.ecChecked qs s' = .next t) :
    (ecCheck s.curveP qs = true ∧ t = s'.succeed) ∨
      (ecCheck s.curveP qs = false ∧ t = s.raise .invalidParameters) := by
  unfold State.ecChecked at h
  split at h <;> cases h <;> simp_all

/-- A guarded write either sets `OVR` alone or is performed (spec/20_memory.md R81). -/
theorem State.guarded_cases (s s' : State) :
    (s.busy = true ∧ s.guarded s' = s.overrun) ∨ (s.busy = false ∧ s.guarded s' = s') := by
  cases h : s.busy <;> simp [State.guarded, h]

/-- Everything a host write can do (R64, R81). -/
theorem State.busWrite_cases (s : State) (wa : WordAddr) (d : Word) :
    s.busWrite wa d = s ∨ s.busWrite wa d = s.resetEngine ∨ s.busWrite wa d = s.setIe (d.getLsbD 0) ∨
      s.busWrite wa d = s.writeStatus d ∨ (s.busy = true ∧ s.busWrite wa d = s.overrun) ∨
      (s.busy = false ∧
        (s.busWrite wa d = s.accept d ∨ s.busWrite wa d = s.writePtag d ∨
          ∃ v k, s.busWrite wa d = s.writeWide v k d)) := by
  unfold State.busWrite
  split
  · exact .inl rfl
  · exact .inl rfl
  · unfold State.writeCtrl
    split
    · exact .inr (.inl rfl)
    · exact .inr (.inr (.inl rfl))
  · exact .inr (.inr (.inr (.inl rfl)))
  · rcases s.guarded_cases (s.accept d) with h | ⟨hb, h⟩
    · exact .inr (.inr (.inr (.inr (.inl h))))
    · exact .inr (.inr (.inr (.inr (.inr ⟨hb, .inl h⟩))))
  · rcases s.guarded_cases (s.writePtag d) with h | ⟨hb, h⟩
    · exact .inr (.inr (.inr (.inr (.inl h))))
    · exact .inr (.inr (.inr (.inr (.inr ⟨hb, .inr (.inl h)⟩))))
  · rename_i v k _
    rcases s.guarded_cases (s.writeWide v k d) with h | ⟨hb, h⟩
    · exact .inr (.inr (.inr (.inr (.inl h))))
    · exact .inr (.inr (.inr (.inr (.inr ⟨hb, .inr (.inr ⟨v, k, h⟩)⟩))))
  · exact .inl rfl

/-- Everything the engine's turn can do: a Complete while busy, nothing while idle (R79). -/
theorem engineTurn_cases {s t : State} (h : engineTurn s = .next t) :
    (s.busy = false ∧ t = s) ∨
      (s.busy = true ∧ decode s.cmd = .illegalCommand ∧ t = s.raise .illegalCommand) ∨
      (s.busy = true ∧ ∃ i, decode s.cmd = .command i ∧ exec i s = .next t) := by
  unfold engineTurn complete at h
  cases hb : s.busy with
  | false => rw [hb] at h; cases h; exact .inl ⟨rfl, rfl⟩
  | true =>
    rw [hb] at h
    cases hi : decode s.cmd with
    | command i => rw [hi] at h; exact .inr (.inr ⟨rfl, i, rfl, h⟩)
    | illegalCommand => rw [hi] at h; cases h; exact .inr (.inl ⟨rfl, rfl, rfl⟩)

/-- Everything an event can do (R77). -/
theorem performEvent_cases {e : Event} {s t : State} (h : performEvent e s = .next t) :
    (∃ wa, e = .read wa ∧ t = s.answerRead (s.busRead wa)) ∨
      (∃ wa d, e = .write wa d ∧ t = s.busWrite wa d) ∨ (e = .hardReset ∧ t = s.resetEngine) ∨
      (e = .engine ∧ engineTurn s = .next t) := by
  cases e with
  | read wa => cases h; exact .inl ⟨wa, rfl, rfl⟩
  | write wa d => cases h; exact .inr (.inl ⟨wa, d, rfl, rfl⟩)
  | hardReset => cases h; simp
  | engine => exact .inr (.inr (.inr ⟨rfl, h⟩))
  | narrow => cases h

/-- Everything a step can do: the engine's turn where no event is scheduled, else the first event. -/
theorem step_cases {s t : State} (h : step s = .next t) :
    (s.schedule = [] ∧ engineTurn s = .next t) ∨
      (∃ e rest, s.schedule = e :: rest ∧ performEvent e (s.setSchedule rest) = .next t) := by
  unfold step nextEvent at h
  split at h
  · exact .inl ⟨‹_›, h⟩
  · rename_i e rest hs; exact .inr ⟨e, rest, hs, h⟩

end Sys2Proof.Machine
end

