-- ==== Sys2Proof/Laws/Exec.lean ====
section
/-! SUPPORT. What each meaning can do, said once: one inversion lemma per command (its two or three ends). -/

namespace Sys2Proof.Machine

theorem execNop_cases {s t : State} (h : execNop s = .next t) : t = s.succeed := by cases h; rfl

theorem execModred_cases {rd rs1 rs3 : RIdx} {s t : State} (h : execModred rd rs1 rs3 s = .next t) :
    (s.x rs3 < 1 ∧ t = s.raise .invalidParameters) ∨
      (1 ≤ s.x rs3 ∧ t = (s.setX rd (emod (s.x rs1) (s.x rs3))).succeed) := by
  unfold execModred at h
  split at h <;> cases h
  · exact .inl ⟨‹_›, rfl⟩
  · exact .inr ⟨by omega, rfl⟩

theorem execModinv_cases {rd rs1 rs3 : RIdx} {s t : State} (h : execModinv rd rs1 rs3 s = .next t) :
    (s.x rs3 < 1 ∧ t = s.raise .invalidParameters) ∨
      (1 ≤ s.x rs3 ∧ inv (s.x rs1) (s.x rs3) = none ∧ t = s.raise .nonInvertibleElement) ∨
      (1 ≤ s.x rs3 ∧ ∃ v, inv (s.x rs1) (s.x rs3) = some v ∧ t = (s.setX rd v).succeed) := by
  unfold execModinv at h
  split at h
  · cases h; exact .inl ⟨‹_›, rfl⟩
  · split at h <;> cases h
    · exact .inr (.inl ⟨by omega, ‹_›, rfl⟩)
    · rename_i v hv; exact .inr (.inr ⟨by omega, v, hv, rfl⟩)

theorem execModpow_cases {rd rs1 rs2 rs3 : RIdx} {s t : State} (h : execModpow rd rs1 rs2 rs3 s = .next t) :
    ((s.x rs3 < 1 ∨ s.x rs2 < 0) ∧ t = s.raise .invalidParameters) ∨
      (1 ≤ s.x rs3 ∧ 0 ≤ s.x rs2 ∧ t = (s.setX rd (modpow (s.x rs1) (s.x rs2).toNat (s.x rs3))).succeed) := by
  unfold execModpow at h
  split at h <;> cases h
  · exact .inl ⟨‹_›, rfl⟩
  · exact .inr ⟨by omega, by omega, rfl⟩

theorem execMrround_cases {rs1 rs2 : RIdx} {s t : State} (h : execMrround rs1 rs2 s = .next t) :
    ((s.x rs1 < 5 ∨ emod (s.x rs1) 2 = 0 ∨ s.x rs2 < 2 ∨ s.x rs2 > s.x rs1 - 2) ∧ t = s.raise .invalidParameters) ∨
      (¬(s.x rs1 < 5 ∨ emod (s.x rs1) 2 = 0 ∨ s.x rs2 < 2 ∨ s.x rs2 > s.x rs1 - 2) ∧
        t = (s.setT (mrRound (s.x rs1) (s.x rs2))).succeed) := by
  unfold execMrround at h
  split at h <;> cases h
  · exact .inl ⟨‹_›, rfl⟩
  · exact .inr ⟨‹_›, rfl⟩

theorem execIsprime_cases {rs1 : RIdx} {rounds : Nat} {s t : State} (h : execIsprime rs1 rounds s = .next t) :
    t = ((s.setDraws (isProbablyPrime Config.rng (s.x rs1) rounds s.draws).2).setT
      (isProbablyPrime Config.rng (s.x rs1) rounds s.draws).1).succeed := by
  cases h; rfl

theorem execEconcurve_cases {ps1 : PIdx} {s t : State} (h : execEconcurve ps1 s = .next t) :
    (ecCheck s.curveP [s.pt ps1] = true ∧
        t = (s.setT (ecOn s.curveA s.curveB s.curveP (s.pt ps1))).succeed) ∨
      (ecCheck s.curveP [s.pt ps1] = false ∧ t = s.raise .invalidParameters) :=
  State.ecChecked_cases h

theorem execEcneg_cases {pd ps1 : PIdx} {s t : State} (h : execEcneg pd ps1 s = .next t) :
    (ecCheck s.curveP [s.pt ps1] = true ∧ t = (s.setPt pd (ecNeg s.curveP (s.pt ps1))).succeed) ∨
      (ecCheck s.curveP [s.pt ps1] = false ∧ t = s.raise .invalidParameters) :=
  State.ecChecked_cases h

theorem execEcdbl_cases {pd ps1 : PIdx} {s t : State} (h : execEcdbl pd ps1 s = .next t) :
    (ecCheck s.curveP [s.pt ps1] = true ∧ t = (s.setPt pd (ecDbl s.curveA s.curveP (s.pt ps1))).succeed) ∨
      (ecCheck s.curveP [s.pt ps1] = false ∧ t = s.raise .invalidParameters) :=
  State.ecChecked_cases h

theorem execEcadd_cases {pd ps1 ps2 : PIdx} {s t : State} (h : execEcadd pd ps1 ps2 s = .next t) :
    (ecCheck s.curveP [s.pt ps1, s.pt ps2] = true ∧
        t = (s.setPt pd (ecAdd s.curveA s.curveP (s.pt ps1) (s.pt ps2))).succeed) ∨
      (ecCheck s.curveP [s.pt ps1, s.pt ps2] = false ∧ t = s.raise .invalidParameters) :=
  State.ecChecked_cases h

theorem execEcsmul_cases {pd : PIdx} {rk : RIdx} {ps1 : PIdx} {s t : State} (h : execEcsmul pd rk ps1 s = .next t) :
    (ecCheck s.curveP [s.pt ps1] = true ∧
        t = (s.setPt pd (ecSmul s.curveA s.curveP (s.x rk) (s.pt ps1))).succeed) ∨
      (ecCheck s.curveP [s.pt ps1] = false ∧ t = s.raise .invalidParameters) :=
  State.ecChecked_cases h

end Sys2Proof.Machine
end

