-- ==== Sys2Proof/Laws/HostSequences.lean ====
section
/-! SUPPORT. What a host sequence does with malformed input: it is rejected whole, with nothing loaded
(spec/45_host_sequences.md R211, R232). -/

namespace Sys2Proof.Machine

/-- Everything the host's check of its operands can do: the sequence runs on operands that all fit, or the state stays
and the answer is InvalidParameters. -/
theorem seqOperands_cases {α : Type} (ns : List Int) (qs : List Point) (m : HostSeq α) (s : State) :
    ((∀ n ∈ ns ++ qs.flatMap Point.coordinates, fits s.build.W n = true) ∧ seqOperands ns qs m s = m s) ∨
      ((∃ n ∈ ns ++ qs.flatMap Point.coordinates, fits s.build.W n = false) ∧
        seqOperands ns qs m s = .next (s, .error .invalidParameters)) := by
  unfold seqOperands seqFail
  by_cases h : ∀ n ∈ ns ++ qs.flatMap Point.coordinates, fits s.build.W n = true
  · exact .inl ⟨h, if_pos (List.all_eq_true.mpr h)⟩
  · refine .inr ⟨?_, if_neg (h ∘ List.all_eq_true.mp)⟩
    simpa only [not_forall, exists_prop, Bool.not_eq_true] using h

/-- A sequence with an operand that does not fit loads nothing. -/
theorem seqOperands_rejects {α : Type} {ns : List Int} {qs : List Point} {m : HostSeq α} {s : State} {n : Int}
    (hn : n ∈ ns ++ qs.flatMap Point.coordinates) (hf : fits s.build.W n = false) :
    seqOperands ns qs m s = .next (s, .error .invalidParameters) := by
  rcases seqOperands_cases ns qs m s with ⟨h, _⟩ | ⟨_, h⟩
  · simp [h n hn] at hf
  · exact h

end Sys2Proof.Machine
end

