-- ==== Sys2Proof/Laws/PerInstr.lean ====
section
/-! SUPPORT. The family MatchesRow: the word of a command is a word of the command's own row (spec/30_encoding.md R98),
one lemma per constructor of `Instr`. -/

namespace Sys2Proof.Laws.MatchesRow

/-- The encoded word matches the row of its command. -/
def Statement (i : Instr) : Prop := i.op.matchesWord (encode i) = true

theorem nop : Statement .nop := by unfold Statement; decide
theorem modred (rd rs1 rs3 : RIdx) : Statement (.modred rd rs1 rs3) := by
  revert rd rs1 rs3; unfold Statement; decide +kernel
theorem modinv (rd rs1 rs3 : RIdx) : Statement (.modinv rd rs1 rs3) := by
  revert rd rs1 rs3; unfold Statement; decide +kernel
theorem modpow (rd rs1 rs2 rs3 : RIdx) : Statement (.modpow rd rs1 rs2 rs3) := by
  revert rd rs1 rs2 rs3; unfold Statement; decide +kernel
theorem mrround (rs1 rs2 : RIdx) : Statement (.mrround rs1 rs2) := by
  revert rs1 rs2; unfold Statement; decide +kernel
theorem isprime (rs1 : RIdx) (rounds : Nat) : Statement (.isprime rs1 rounds) := by
  simp only [Statement, Op.matchesWord, Instr.op, encode, Op.mask, Op.pattern, Op.opcode, formatI, place, beq_iff_eq]
  generalize BitVec.ofNat 16 rounds = imm
  ext i hi
  interval_cases i <;> simp
theorem econcurve (ps1 : PIdx) : Statement (.econcurve ps1) := by
  revert ps1; unfold Statement; decide +kernel
theorem ecneg (pd ps1 : PIdx) : Statement (.ecneg pd ps1) := by
  revert pd ps1; unfold Statement; decide +kernel
theorem ecdbl (pd ps1 : PIdx) : Statement (.ecdbl pd ps1) := by
  revert pd ps1; unfold Statement; decide +kernel
theorem ecadd (pd ps1 ps2 : PIdx) : Statement (.ecadd pd ps1 ps2) := by
  revert pd ps1 ps2; unfold Statement; decide +kernel
theorem ecsmul (pd : PIdx) (rk : RIdx) (ps1 : PIdx) : Statement (.ecsmul pd rk ps1) := by
  revert pd rk ps1; unfold Statement; decide +kernel

end Sys2Proof.Laws.MatchesRow
end

