-- ==== Sys2Proof/Laws/Window.lean ====
section
/-! SUPPORT. The register window: limbs of a wide register (spec/20_memory.md R67, R68), and the frame of a command as
the host reads it. -/

namespace Sys2Proof.Machine

/-- One bit of a limb is one bit of the register (R67). -/
theorem getLsbD_readLimb {w : Nat} (v : BitVec w) (k i : Nat) :
    (readLimb v k).getLsbD i = (decide (i < 32) && v.getLsbD (32 * k + i)) := by
  simp [readLimb, BitVec.getLsbD_extractLsb']

/-- The bits of a register after a limb is written: those of the word inside the limb, the old ones outside (R68). -/
theorem getLsbD_writeLimb {w : Nat} (v : BitVec w) (k : Nat) (d : Word) (i : Nat) :
    (writeLimb v k d).getLsbD i =
      if 32 * k ≤ i ∧ i < 32 * k + 32 then decide (i < w) && d.getLsbD (i - 32 * k) else v.getLsbD i := by
  simp only [writeLimb, BitVec.getLsbD_or, BitVec.getLsbD_and, BitVec.getLsbD_not, BitVec.getLsbD_shiftLeft,
    BitVec.getLsbD_setWidth, BitVec.getLsbD_allOnes]
  by_cases hw : i < w
  · by_cases h1 : i < 32 * k
    · simp [hw, h1]
    · by_cases h2 : i < 32 * k + 32
      · have h3 : i - 32 * k < 32 := by omega
        have h4 : i - 32 * k < w := by omega
        simp [hw, h1, h2, h3, h4]
      · have h3 : ¬i - 32 * k < 32 := by omega
        simp [hw, h1, h2, h3, BitVec.getLsbD_of_ge d (i - 32 * k) (by omega)]
  · simp [hw, BitVec.getLsbD_of_ge v i (by omega)]

/-- Writing a wide register twice keeps the second value. -/
theorem State.setWide_setWide (s : State) (v : WideReg) (x y : BitVec s.build.W) :
    (s.setWide v x).setWide v y = s.setWide v y := by
  cases v <;> simp [State.setWide]

/-- Writing a wide register what it holds changes nothing. -/
theorem State.setWide_wide (s : State) (v : WideReg) : s.setWide v (s.wide v) = s := by
  cases v <;> simp [State.setWide, State.wide]

/-- A limb written into a register just written. -/
theorem State.writeWide_setWide (s : State) (v : WideReg) (x : BitVec s.build.W) (k : Nat) (d : Word) :
    (s.setWide v x).writeWide v k d = s.setWide v (writeLimb x k d) := by
  have h : (s.setWide v x).wide v = x := by rw [State.wide_setWide, if_pos rfl]
  unfold State.writeWide
  rw [h]
  exact State.setWide_setWide s v x _

/-- The window reads as before outside the registers a command writes, if each of them does. -/
theorem keepsWindow_of {s t : State} {touched : WindowReg → Prop} (hl : t.build.limbs = s.build.limbs)
    (hie : t.ie = s.ie) (hcmd : t.cmd = s.cmd) (htag : ¬touched .ptag → t.ptag = s.ptag)
    (hw : ∀ v k, ¬touched (.limb v k) → readLimb (t.wide v) k = readLimb (s.wide v) k) :
    KeepsWindow s t touched := by
  intro wa hs ht
  have hat : t.windowAt wa = s.windowAt wa := by simp only [State.windowAt, hl]
  unfold State.busRead
  rw [hat]
  split
  · rfl
  · rw [hl]
  · simp only [State.ctrlWord, hie]
  · exact absurd ‹_› hs
  · exact hcmd
  · rename_i h
    simp only [State.ptagWord, htag (h ▸ ht)]
  · rename_i v k h
    exact hw v k (h ▸ ht)
  · rfl

/-- `CTRL` stands at its own word alone (R65). -/
theorem windowAt_ctrl {s : State} {wa : WordAddr} (h : s.windowAt wa = .ctrl) : wa = wordAt 0x0008 := by
  unfold State.windowAt windowReg at h
  split at h <;> try cases h
  · rename_i hn
    exact BitVec.eq_of_toNat_eq (by simpa [wordAt] using hn)
  · split at h <;> try cases h
    split at h <;> cases h

end Sys2Proof.Machine
end

