-- ==== Sys2Proof/Tests/Slice0.lean ====
section
/-! SUPPORT. The model's own tests. Expected results are those of spec/95_test_vectors.md and of the worked encodings of
spec/30_encoding.md R103; `test_witness_<Name>` shows that the hypotheses of `Obligations.<Name>` can be met, clause by
clause. -/

namespace Sys2Proof.Tests
open Sys2Proof Sys2Proof.Machine

/-! Small states. -/

/-- The reset state with integers in registers. -/
def regs (l : List (RIdx × Int)) : State := l.foldl (fun s e => s.setX e.1 e.2) State.reset

/-- A state with a curve, integers in registers and points in the point registers from `P0` on. -/
def onCurveState (a b p : Int) (l : List (RIdx × Int)) (q0 q1 : Point) : State :=
  ((((((regs l).setInt .ca a).setInt .cb b).setInt .cp p).setPt 0 q0).setPt 1 q1).setPt 2 .inf |>.setPt 3 .inf

/-- The demonstration curve `(0, 7, 17)` (SX4). -/
def demo (l : List (RIdx × Int)) (q0 q1 : Point) : State := onCurveState 0 7 17 l q0 q1

/-- The generator `G = (15, 13)`. -/
def gen : Point := .aff 15 13

/-- The outcome is a next state of which `p` holds. -/
def ends (o : Host.Outcome State Fault Refusal) (p : State → Bool) : Bool :=
  match o with
  | .next t => p t
  | .fault _ => false
  | .refused _ => false

/-- The state with an accepted word and events to come. -/
def busyWith (w : Word) (es : List Event) (s : State) : State := (s.accept w).setSchedule es

/-! Well-formedness: the ill-formed term of the one check. -/

theorem test_wellFormed_refuses_65536_rounds : (Instr.isprime 0 65536).wellFormed = false := by decide
theorem test_wellFormed_accepts_65535_rounds : (Instr.isprime 0 65535).wellFormed = true := by decide

/-! Decoding: words written out from the encoding (R103), one for each constructor. -/

theorem test_decode_nop : decode 0x00000000 = .command .nop := by decide
theorem test_decode_modred : decode 0x00200110 = .command (.modred 1 0 2) := by decide
theorem test_decode_modinv : decode 0x00301411 = .command (.modinv 4 1 3) := by decide
theorem test_decode_modpow : decode 0x00210312 = .command (.modpow 3 0 1 2) := by decide
theorem test_decode_mrround : decode 0x00010018 = .command (.mrround 0 1) := by decide
theorem test_decode_isprime : decode 0xFFFF5019 = .command (.isprime 5 65535) := by decide
theorem test_decode_econcurve : decode 0x00002020 = .command (.econcurve 2) := by decide
theorem test_decode_ecneg : decode 0x00000121 = .command (.ecneg 1 0) := by decide
theorem test_decode_ecdbl : decode 0x00002222 = .command (.ecdbl 2 2) := by decide
theorem test_decode_ecadd : decode 0x00010223 = .command (.ecadd 2 0 1) := by decide
theorem test_decode_ecsmul : decode 0x00703324 = .command (.ecsmul 3 7 3) := by decide
theorem test_decode_illegal : [0x00000001, 0x00010010, 0x00000810, 0x01000012, 0x00100023, 0x00000100, 0x00008019,
    0x000000FF, 0x00004020, 0x00010021, 0x00800024, 0x80000000].all (fun w => decode w == .illegalCommand) = true := by
  decide
theorem test_encode_worked : encode (.modpow 3 0 1 2) = 0x00210312 ∧ encode (.isprime 0 10) = 0x000A0019 ∧
    encode (.ecsmul 3 7 3) = 0x00703324 ∧ encode (.ecadd 2 0 1) = 0x00010223 := by decide
theorem test_table_word : decodeTableWord 32 0x00301411 = some (.modinv 4 1 3) ∧ decodeTableWord 32 1 = none := by decide
theorem test_assembly : (Instr.modpow 3 0 1 2).assembly = "MODPOW R3, R0, R1, R2" ∧ Instr.nop.assembly = "NOP" := by
  decide +kernel

/-! One step of each command (95_test_vectors.md, by vector id). -/

theorem test_nop : ends (exec .nop State.reset) (fun t => t.statusWord == 0x02) = true := by decide
/-- RD1. -/
theorem test_modred_negative : ends (exec (.modred 1 0 2) (regs [(0, -3), (2, 17)]))
    (fun t => t.x 1 == 14 && t.statusWord == 0x02) = true := by decide
/-- RD7, the destination is a source. -/
theorem test_modred_in_place : ends (exec (.modred 0 0 1) (regs [(0, 100), (1, 7)])) (fun t => t.x 0 == 2) = true := by
  decide
/-- IV3. -/
theorem test_modinv : ends (exec (.modinv 4 1 3) (regs [(1, 65537), (3, 3120)])) (fun t => t.x 4 == 2753) = true := by
  decide +kernel
/-- IV4. -/
theorem test_modinv_none : ends (exec (.modinv 4 1 3) (regs [(1, 2), (3, 4), (4, 99)]))
    (fun t => t.x 4 == 99 && t.statusWord == 0x12) = true := by decide
/-- PW1. -/
theorem test_modpow : ends (exec (.modpow 3 0 1 2) (regs [(0, 4), (1, 13), (2, 497)])) (fun t => t.x 3 == 445) = true := by
  decide +kernel
/-- PW3. -/
theorem test_modpow_negative_base : ends (exec (.modpow 3 0 1 2) (regs [(0, -2), (1, 3), (2, 7)]))
    (fun t => t.x 3 == 6) = true := by decide
/-- MR1. -/
theorem test_mrround_passes : ends (exec (.mrround 0 1) (regs [(0, 97), (1, 2)])) (fun t => t.statusWord == 0x06) = true := by
  decide +kernel
/-- MR10. -/
theorem test_mrround_fails : ends (exec (.mrround 0 1) (regs [(0, 561), (1, 2)])) (fun t => t.statusWord == 0x02) = true := by
  decide +kernel
/-- IP7. -/
theorem test_isprime_composite : ends (exec (.isprime 0 10) (regs [(0, 91)])) (fun t => t.statusWord == 0x02) = true := by
  decide
/-- IP12. -/
theorem test_isprime_no_round : ends (exec (.isprime 0 0) (regs [(0, 961)])) (fun t => t.statusWord == 0x06) = true := by
  decide
/-- OC5. -/
theorem test_econcurve_residues : ends (exec (.econcurve 0) (onCurveState 17 (-10) 17 [] gen .inf))
    (fun t => t.statusWord == 0x06) = true := by decide
/-- OC2. -/
theorem test_econcurve_off : ends (exec (.econcurve 0) (demo [] (.aff 5 13) .inf)) (fun t => t.statusWord == 0x02) = true := by
  decide
/-- NG1. -/
theorem test_ecneg : ends (exec (.ecneg 1 0) (demo [] gen .inf)) (fun t => t.pt 1 == .aff 15 4) = true := by decide
/-- NG3: the coordinates of a written `Inf` are 0. -/
theorem test_ecneg_inf : ends (exec (.ecneg 1 0) (demo [] .inf gen))
    (fun t => t.pt 1 == .inf && t.int (.px 1) == 0 && t.int (.py 1) == 0) = true := by decide
/-- DB5, a negative coefficient. -/
theorem test_ecdbl : ends (exec (.ecdbl 1 0) (onCurveState (-15) 2 17 [] (.aff 5 1) .inf))
    (fun t => t.pt 1 == .aff 6 3) = true := by decide +kernel
/-- DB6, `2y` shares a factor with the modulus. -/
theorem test_ecdbl_composite : ends (exec (.ecdbl 1 0) (onCurveState 0 7 15 [] (.aff 1 3) .inf))
    (fun t => t.pt 1 == .inf && t.statusWord == 0x02) = true := by decide +kernel
/-- AD5. -/
theorem test_ecadd : ends (exec (.ecadd 2 0 1) (demo [] gen (.aff 2 10))) (fun t => t.pt 2 == .aff 8 3) = true := by
  decide +kernel
/-- AD14, a coordinate out of range. -/
theorem test_ecadd_out_of_range : ends (exec (.ecadd 2 0 1) (demo [] gen (.aff 17 5)))
    (fun t => t.pt 2 == .inf && t.statusWord == 0x22) = true := by decide
/-- SM7. -/
theorem test_ecsmul_negative : ends (exec (.ecsmul 1 0 0) (demo [(0, -3)] gen .inf)) (fun t => t.pt 1 == .aff 8 14) = true := by
  decide +kernel
/-- SM5, the shortcut on the field modulus. -/
theorem test_ecsmul_shortcut : ends (exec (.ecsmul 1 0 0) (demo [(0, 17)] gen .inf)) (fun t => t.pt 1 == .inf) = true := by
  decide

/-! The window and the events (95_test_vectors.md section 2.10). -/

/-- HP1 to HP3. -/
theorem test_window_reset : State.reset.busRead 0 = 0x4D454501 ∧ State.reset.busRead 1 = 0x00480002 ∧
    State.reset.busRead 3 = 0 := by decide
/-- HP8. -/
theorem test_soft_reset_stores_no_enable : ((State.reset.busWrite 2 3).busRead 2) = 0 := by decide
/-- HP10. -/
theorem test_limbs_of_minus_three :
    ((State.reset.busWrite (wordAt 0x1200) 0xFFFFFFFD).busWrite (wordAt 0x1204) 0xFFFFFFFF).x 1 = -3 := by decide
/-- Program 6, events 8 and 9. -/
theorem test_busy_write_sets_overrun :
    ((State.reset.accept 0x00210312).busWrite (wordAt 0x1000) 99).statusWord = 0x09 := by decide
/-- HP13. -/
theorem test_irq : ends (step (((State.reset.busWrite 2 1)).withFetchWord 32 0))
    (fun t => t.irq && !(t.busWrite 3 2).irq) = true := by decide
theorem test_illegal_word : ends (step (State.reset.withFetchWord 32 1)) (fun t => t.statusWord == 0x32) = true := by decide
theorem test_fetch_word_runs : ends (step (State.reset.withFetchWord 32 0x00210312)) (fun t => t.statusWord == 0x22) = true := by
  decide
/-- Program 3, the decryption. -/
theorem test_ecc_decrypt : (match eccDecrypt ⟨0, 7, 17⟩ 7 (.aff 8 3) (.aff 8 14) State.reset with
    | .next (_, .ok q) => q == .aff 5 9
    | _ => false) = true := by decide +kernel

/-- A ciphertext coordinate outside the register range is rejected with nothing loaded (45_host_sequences.md R232). -/
theorem test_sequence_rejects_before_loading :
    (match eccDecrypt ⟨0, 7, 17⟩ 7 (.aff 8 3) (.aff 8 (2 ^ 63)) State.reset with
      | .next (t, .error e) => t == State.reset && e == .invalidParameters
      | _ => false) = true := by decide +kernel

/-! Witnesses. -/

theorem test_witness_ResetPutsEveryPieceAtItsResetValue : (2 : Word).getLsbD 1 = true := by decide
theorem test_witness_StepRunsTheAcceptedCommand :
    (busyWith 0x10 [] State.reset).busy = true ∧
    decode (busyWith 0x10 [] State.reset).cmd = .command (.modred 0 0 0) ∧
    (busyWith 0x10 [] State.reset).schedule = [] ∧
    (busyWith 0x10 [.engine, .engine] State.reset).schedule = .engine :: [.engine] ∧
    decode (busyWith 0x01 [] State.reset).cmd = .illegalCommand ∧ (busyWith 0x01 [] State.reset).schedule = [] ∧
    (busyWith 0x01 [.engine] State.reset).schedule = .engine :: [] ∧ (busyWith 0x01 [] State.reset).busy = true ∧
    State.reset.busy = false ∧ State.reset.schedule = [] ∧
    (State.reset.setSchedule [.engine]).schedule = .engine :: [] := by decide
theorem test_witness_PlacedWordIsTheNextCommand : (Instr.isprime 7 65535).wellFormed = true := by decide
theorem test_witness_DecodeOfEncodeIsTheCommand : (Instr.isprime 7 0).wellFormed = true := by decide
theorem test_witness_EncodeOfDecodeIsTheWord : decode 0x00777712 = .command (.modpow 7 7 7 7) := by decide
theorem test_witness_NoWordMatchesTwoRows : Op.modpow.matchesWord 0x00777712 = true := by decide
theorem test_witness_ReservedWordsAreIllegal :
    (∀ o ∈ Op.all, o.opcode ≠ (0x00000013 : Word).extractLsb' 0 8) ∧
    (∃ o ∈ Op.all, o.opcode = (0x00010010 : Word).extractLsb' 0 8 ∧
      (0x00010010 : Word) &&& (o.mask &&& 0xFFFFFF00) ≠ 0) ∧
    decode 0x00000013 = .illegalCommand ∧ decode 0x00000010 ≠ .illegalCommand := by decide
theorem test_witness_IllegalWordEndsWithCodeThree :
    ∀ o ∈ Op.all, (State.reset.accept 0x00000013).cmd &&& o.mask ≠ o.pattern := by decide
theorem test_witness_ErringCompleteWritesOnlyItsCode :
    ends (complete (State.reset.accept 0x00000013)) (fun t => t.err != 0) = true := by decide
theorem test_witness_OnlyNarrowAccessesAreRefused :
    step (State.reset.setSchedule [.narrow]) = .refused .narrowAccess := by rfl
theorem test_witness_InvalidOperandsWriteNothing :
    (regs [(2, 0)]).invalidOperands (.modred 1 0 2) = true ∧
    (regs [(2, 0)]).invalidOperands (.modinv 1 0 2) = true ∧
    (regs [(2, 0)]).invalidOperands (.modpow 1 0 1 2) = true ∧
    (regs [(1, -1), (2, 1)]).invalidOperands (.modpow 1 0 1 2) = true ∧
    (regs [(0, 3), (1, 2)]).invalidOperands (.mrround 0 1) = true ∧
    (regs [(0, 6), (1, 2)]).invalidOperands (.mrround 0 1) = true ∧
    (regs [(0, 5), (1, 1)]).invalidOperands (.mrround 0 1) = true ∧
    (regs [(0, 5), (1, 4)]).invalidOperands (.mrround 0 1) = true ∧
    State.reset.invalidOperands (.econcurve 0) = true ∧
    (demo [] (.aff 17 5) gen).invalidOperands (.econcurve 0) = true ∧
    (demo [] (.aff 3 (-1)) gen).invalidOperands (.ecneg 1 0) = true ∧
    (demo [] (.aff (-1) 3) gen).invalidOperands (.ecdbl 1 0) = true ∧
    (demo [] gen (.aff 3 17)).invalidOperands (.ecadd 2 0 1) = true ∧
    (demo [] (.aff 17 3) gen).invalidOperands (.ecadd 2 0 1) = true ∧
    (demo [(0, 5)] (.aff 17 5) gen).invalidOperands (.ecsmul 1 0 0) = true := by decide
theorem test_witness_EveryCommandReportsOneCode :
    ends (exec (.modinv 1 0 2) (regs [(0, 2), (2, 4)])) (fun t => t.err == 1) = true ∧
    ends (exec (.modinv 1 0 2) (regs [(0, 2), (2, -4)])) (fun t => t.err == 2) = true ∧
    ends (exec (.modinv 1 0 2) (regs [(0, 3), (2, 4)])) (fun t => t.err == 0) = true := by decide
theorem test_witness_EveryCommandKeepsCurveAndControl : exec .nop State.reset = .next State.reset.succeed := by rfl
theorem test_witness_OnlyPredicatesWriteT :
    exec .nop State.reset = .next State.reset.succeed ∧ isPredicate .nop = false ∧
    ends (exec (.mrround 0 1) State.reset) (fun t => t.err != 0) = true ∧
    ends (step ((State.reset.setT true).setSchedule [.hardReset])) (fun t => !t.t) = true ∧
    ends (step ((State.reset.setT true).setSchedule [.write (wordAt 0x0008) 2])) (fun t => !t.t) = true ∧
    ends (step (busyWith 0x00000019 [] (State.reset.setT true))) (fun t => !t.t) = true ∧
    ends (step (busyWith 0x00000019 [.engine] (State.reset.setT true))) (fun t => !t.t) = true :=
  ⟨rfl, rfl, by decide, by decide, by decide, by decide, by decide⟩
theorem test_witness_WrittenIntegersAreInRange :
    ends (exec (.modred 1 0 2) (regs [(0, 2 ^ 63 - 2), (2, 2 ^ 63 - 1)])) (fun t => t.x 1 == 2 ^ 63 - 2) = true := by
  decide +kernel
theorem test_witness_StepKeepsStatusCoherent :
    State.reset.Coherent ∧ (State.reset.accept 0).Coherent ∧
    ends (step (State.reset.accept 0)) (fun _ => true) = true := by decide
theorem test_witness_StepKeepsTheBuild : step State.reset = .next State.reset := by rfl
theorem test_witness_CommandsKeepPointsOnTheCurve :
    (demo [(0, 5)] gen (.aff 3 0)).OnCurve ∧
    ends (exec (.ecadd 2 0 1) (demo [(0, 5)] gen (.aff 3 0))) (fun _ => true) = true := by
  unfold State.OnCurve; decide +kernel
theorem test_witness_AddressMapOfTheWindow :
    State.reset.windowAt (wordAt 0x0018) = .reserved ∧ State.reset.windowAt (wordAt 0x0FFC) = .reserved ∧
    State.reset.windowAt (wordAt 0x2600) = .reserved ∧ State.reset.windowAt (wordAt 0x2FFC) = .reserved ∧
    State.reset.windowAt (wordAt 0x1000) = .limb (.r 0) 0 ∧ State.reset.windowAt (wordAt 0x1E04) = .limb (.r 7) 1 ∧
    State.reset.windowAt (wordAt 0x2404) = .limb .cp 1 ∧ State.reset.windowAt (wordAt 0x3E04) = .limb (.py 3) 1 := by
  decide
theorem test_witness_ReservedOffsetsReadZeroAndIgnoreWrites :
    State.reset.busRead (wordAt 0x1008) = 0 ∧ State.reset.build.limbs ≤ 0x1008 % 0x200 / 4 ∧
    State.reset.busRead (wordAt 0x3FFC) = 0 ∧ State.reset.build.limbs ≤ 0x3FFC % 0x200 / 4 ∧
    State.reset.busRead (wordAt 0x0018) = 0 ∧ State.reset.busRead (wordAt 0x2FFC) = 0 := by decide
theorem test_witness_CtrlWriteSetsEnableOrResets :
    (0xFFFFFFFD : Word).getLsbD 1 = false ∧ (0x00000003 : Word).getLsbD 1 = true := by decide
theorem test_witness_CmdWriteIsTheAccept : State.reset.busy = false ∧ (State.reset.accept 0).busy = true := by decide
theorem test_witness_PtagWriteReplacesAllFourTags : State.reset.busy = false ∧ (State.reset.accept 0).busy = true := by
  decide
theorem test_witness_LimbWriteReachesItsLimbOnly :
    State.reset.windowAt (wordAt 0x1204) = .limb (.r 1) 1 ∧ State.reset.busy = false ∧
    0 < State.reset.build.limbs ∧ wordAt 0x1200 ≠ wordAt 0x1204 := by decide
theorem test_witness_BusyWritesAreDroppedWithOverrun :
    (State.reset.accept 0).busy = true ∧ (State.reset.accept 0).windowAt 2 = .ctrl ∧
    (State.reset.accept 0).windowAt 3 = .status ∧ (State.reset.accept 0).windowAt 6 = .reserved ∧
    (State.reset.accept 0).windowAt 0 = .id ∧ (State.reset.accept 0).windowAt 1 = .config ∧
    (State.reset.accept 0).windowAt 4 = .cmd ∧ (State.reset.accept 0).windowAt 5 = .ptag ∧
    (State.reset.accept 0).windowAt (wordAt 0x2000) = .limb .ca 0 := by decide
theorem test_witness_HostReadChangesNothing :
    (State.reset.setSchedule [.read 0]).schedule = .read 0 :: [] ∧
    (State.reset.setSchedule [.write 4 0]).schedule = .write 4 0 :: [] ∧
    (State.reset.setSchedule [.hardReset]).schedule = .hardReset :: [] := by decide
theorem test_witness_HostAccessesWhileBusyCannotChangeTheResult :
    (busyWith 0x00210312 [.write (wordAt 0x1000) 99, .read 3, .write 2 1, .engine, .read 3] State.reset).busy = true ∧
    decode (busyWith 0x00210312 [] State.reset).cmd = .command (.modpow 3 0 1 2) ∧
    [Event.write (wordAt 0x1000) 99, .read 3, .write 2 1].all Event.isHostAccess = true := by decide
theorem test_witness_AcceptedCommandIsCompleted :
    (busyWith 0 [.read 3, .engine] State.reset).busy = true ∧ (Event.read 3).isHostAccess = true := by decide
theorem test_witness_ModredWritesTheResidue : 1 ≤ (regs [(2, 1)]).x 2 ∧ 1 ≤ (regs [(2, 17)]).x 2 := by decide
theorem test_witness_ModinvWritesTheInverse :
    1 ≤ (regs [(1, 3), (3, 7)]).x 3 ∧ Int.gcd ((regs [(1, 3), (3, 7)]).x 1) ((regs [(1, 3), (3, 7)]).x 3) = 1 ∧
    1 ≤ (regs [(3, 1)]).x 3 ∧ Int.gcd ((regs [(3, 1)]).x 1) ((regs [(3, 1)]).x 3) = 1 := by decide
theorem test_witness_ModinvWithoutInverseReportsCodeOne :
    1 ≤ (regs [(1, 2), (3, 4)]).x 3 ∧ Int.gcd ((regs [(1, 2), (3, 4)]).x 1) ((regs [(1, 2), (3, 4)]).x 3) ≠ 1 := by decide
theorem test_witness_ModpowWritesThePower :
    1 ≤ (regs [(1, 0), (2, 1)]).x 2 ∧ 0 ≤ (regs [(1, 0), (2, 1)]).x 1 := by decide
theorem test_witness_InverseIsUniqueOrAbsent :
    inv 5 1 = some 0 ∧ inv 3 7 = some 5 ∧ inv 2 4 = none ∧ Int.gcd (2 % 4) 4 ≠ 1 := by decide
theorem test_witness_RepeatedSquaringIsThePower : modpow 5 0 1 = 0 ∧ modpow 0 0 5 = 1 ∧ modpow (-2) 3 7 = 6 := by decide

/-- The operands of program 1: message 65, `e = 17`, `n = 61 * 53`, `φ = 60 * 52`. -/
def rsaState : State := regs [(0, 65), (1, 17), (2, 3233), (3, 3120)]

theorem test_witness_RsaRoundTripOnTheEngine :
    ([0, 1, 2, 3, 4, 5, 6] : List RIdx).Nodup ∧ Nat.Prime 61 ∧ Nat.Prime 53 ∧ (61 : Nat) ≠ 53 ∧
    rsaState.x 2 = ((61 : Nat) : Int) * (53 : Nat) ∧
    rsaState.x 3 = (((61 : Nat) : Int) - 1) * ((53 : Nat) - 1) ∧ 0 ≤ rsaState.x 0 ∧ rsaState.x 0 < rsaState.x 2 ∧
    1 ≤ rsaState.x 1 ∧ Int.gcd (rsaState.x 1) (rsaState.x 3) = 1 :=
  ⟨by decide, by norm_num, by norm_num, by decide, by decide, by decide, by decide, by decide, by decide, by decide⟩

theorem test_witness_MrroundTestsTheWitness :
    5 ≤ (regs [(0, 5), (1, 2)]).x 0 ∧ (regs [(0, 5), (1, 2)]).x 0 % 2 = 1 ∧ 2 ≤ (regs [(0, 5), (1, 2)]).x 1 ∧
    (regs [(0, 5), (1, 3)]).x 1 ≤ (regs [(0, 5), (1, 3)]).x 0 - 2 ∧
    (regs [(0, 5), (1, 2)]).x 1 ≤ (regs [(0, 5), (1, 2)]).x 0 - 2 := by decide
theorem test_witness_IsprimeByTrialDivision :
    (regs [(0, 1)]).x 0 < 2 ∧
    (regs [(0, 2)]).x 0 ∈ ([2, 3, 5, 7, 11, 13, 17, 19, 23, 29] : List Int) ∧
    (2 ≤ (regs [(0, 841)]).x 0 ∧ (regs [(0, 841)]).x 0 ∉ ([2, 3, 5, 7, 11, 13, 17, 19, 23, 29] : List Int) ∧
      ∃ q ∈ ([2, 3, 5, 7, 11, 13, 17, 19, 23, 29] : List Int), q ∣ (regs [(0, 841)]).x 0) ∧
    2 ≤ (regs [(0, 31)]).x 0 ∧
      ∀ q ∈ ([2, 3, 5, 7, 11, 13, 17, 19, 23, 29] : List Int), ¬q ∣ (regs [(0, 31)]).x 0 := by decide
theorem test_witness_IsprimeByDrawnWitnesses :
    2 ≤ (regs [(0, 961)]).x 0 ∧
      ∀ q ∈ ([2, 3, 5, 7, 11, 13, 17, 19, 23, 29] : List Int), ¬q ∣ (regs [(0, 961)]).x 0 := by decide
theorem test_witness_IsprimeResultSet :
    trial 961 = .undecided ∧ mrRound 961 115 = true ∧ mrRound 961 2 = false ∧
    (isProbablyPrime (fun _ => 113) 961 1 0).1 = true ∧ (isProbablyPrime (fun _ => 0) 961 1 0).1 = false := by
  decide +kernel
theorem test_witness_PrimesAreAlwaysAccepted :
    ((regs [(0, 2)]).x 0).toNat.Prime ∧ ((regs [(0, 97)]).x 0).toNat.Prime := by
  have h2 : (regs [(0, 2)]).x 0 = 2 := by decide
  have h97 : (regs [(0, 97)]).x 0 = 97 := by decide
  rw [h2, h97]
  exact ⟨Nat.prime_two, show Nat.Prime 97 by norm_num⟩
theorem test_witness_SplitIsTheUniquePair :
    (3 : Int) % 2 = 1 ∧ split 3 = (1, 1) ∧ split 97 = (3, 5) ∧ split 561 = (35, 4) := by decide
theorem test_witness_TrialDivisionAnswers :
    trial 29 = .prime ∧ trial 1 = .composite ∧ trial 841 = .composite ∧ trial 31 = .undecided ∧
    ([29, 2, 3, 5, 7, 11, 13, 17, 19, 23] : List Int).Perm [2, 3, 5, 7, 11, 13, 17, 19, 23, 29] := by decide
theorem test_witness_EconcurveTestsTheEquation :
    1 ≤ (demo [] (.aff 0 16) .inf).curveP ∧ pointOutside 17 ((demo [] (.aff 0 16) .inf).pt 0) = false ∧
    (demo [] (.aff 0 16) .inf).pt 0 = .aff 0 16 ∧ (demo [] (.aff 0 16) .inf).pt 1 = .inf := by decide
theorem test_witness_EcnegWritesTheNegative :
    1 ≤ (demo [] (.aff 16 0) .inf).curveP ∧ (demo [] (.aff 16 0) .inf).curveP = 17 ∧
    (demo [] (.aff 16 0) .inf).pt 0 = .aff 16 0 ∧ pointOutside 17 (.aff 16 0) = false ∧
    (demo [] (.aff 16 0) .inf).pt 1 = .inf := by decide
theorem test_witness_EcdblWritesTheDouble :
    1 ≤ (demo [] gen (.aff 3 0)).curveP ∧ (demo [] gen (.aff 3 0)).curveP = 17 ∧
    (demo [] gen (.aff 3 0)).pt 0 = .aff 15 13 ∧ pointOutside 17 gen = false ∧ Int.gcd (2 * 13) 17 = 1 ∧
    (demo [] gen (.aff 3 0)).pt 1 = .aff 3 0 ∧ Int.gcd (2 * 0) 17 ≠ 1 ∧ (demo [] gen (.aff 3 0)).pt 2 = .inf := by decide
theorem test_witness_EcaddWritesTheSum :
    (demo [] gen (.aff 2 10)).curveP = 17 ∧ (demo [] gen (.aff 2 10)).pt 0 = .aff 15 13 ∧
    (demo [] gen (.aff 2 10)).pt 1 = .aff 2 10 ∧ (demo [] gen (.aff 2 10)).pt 2 = .inf ∧
    pointOutside 17 (.aff 2 10) = false ∧ Int.gcd (2 - 15) 17 = 1 ∧
    (demo [] gen (.aff 15 4)).pt 1 = .aff 15 4 ∧ pointOutside 17 (.aff 15 4) = false ∧
    (onCurveState 0 7 15 [] (.aff 1 2) (.aff 4 5)).curveP = 15 ∧
    pointOutside 15 (.aff 1 2) = false ∧ pointOutside 15 (.aff 4 5) = false ∧ Int.gcd (4 - 1) 15 ≠ 1 := by decide
theorem test_witness_EcsmulRunsDoubleAndAdd :
    (demo [(0, 17), (1, -1), (2, 1)] gen .inf).curveP = 17 ∧
    (demo [(0, 17), (1, -1), (2, 1)] gen .inf).pt 0 = .aff 15 13 ∧ pointOutside 17 gen = false ∧
    (17 : Int) ∣ (demo [(0, 17), (1, -1), (2, 1)] gen .inf).x 0 ∧
    (demo [(0, 17), (1, -1), (2, 1)] gen .inf).x 1 = -1 ∧ ¬(17 : Int) ∣ -1 ∧
    (demo [(0, 17), (1, -1), (2, 1)] gen .inf).x 2 = 1 ∧ ¬(17 : Int) ∣ 1 := by decide
theorem test_witness_DoubleAndAddFollowsTheBits :
    smulFrom 0 17 1 .inf gen = gen ∧ smulFrom 0 17 5 .inf gen = .aff 6 6 := by decide +kernel
theorem test_witness_NegativeScalarNegatesThePoint :
    pointOutside 1 (.aff 0 0) = false ∧ pointOutside 17 gen = false ∧
    ecSmul 0 17 (-3) gen = .aff 8 14 ∧ ecSmul 0 17 3 (ecNeg 17 gen) = .aff 8 14 := by decide +kernel
theorem test_witness_GroupLawFacts :
    pointOutside 2 (.aff 0 1) = false ∧ pointOutside 17 gen = false ∧ pointOutside 17 (.aff 2 10) = false ∧
    ecAdd 0 17 gen (.aff 2 10) = .aff 8 3 ∧ ecAdd 0 17 (.aff 2 10) gen = .aff 8 3 := by decide +kernel
theorem test_witness_TaggedCoordinatesAreIgnored :
    (demo [] gen .inf).tag 1 = true ∧
    ends (exec (.ecadd 2 0 1) ((demo [] gen .inf).setInt (.px 1) 17)) (fun t => t.pt 2 == gen) = true := by decide
theorem test_witness_CoefficientsActAsResidues :
    fits 64 17 = true ∧ fits 64 (-10) = true ∧ (17 : Int) ∣ 17 - (demo [] gen .inf).curveA ∧
    (17 : Int) ∣ -10 - (demo [] gen .inf).curveB ∧ (demo [] gen .inf).curveP = 17 ∧
    ends (exec (.econcurve 0) (demo [] gen .inf)) (fun _ => true) = true := by decide
theorem test_witness_LoadAndReadMacros :
    State.reset.busy = false ∧ fits State.reset.build.W (-(2 ^ 63)) = true ∧
    fits State.reset.build.W (2 ^ 63 - 1) = true := by decide +kernel
theorem test_witness_PointMacros :
    State.reset.busy = false ∧ fits State.reset.build.W 15 = true ∧ fits State.reset.build.W 13 = true ∧
    (State.reset.loadPoint 3 gen).pt 3 = gen ∧ (State.reset.loadPoint 0 .inf).pt 0 = .inf := by decide +kernel

end Sys2Proof.Tests
end

section
/-! PROOFS. The statements of spec/00_scope.md: no step changes the build (R5), the
inverse (R13) and the power (R14). -/

namespace Sys2Proof.Machine

/-! ## The build stays (R5, R43) -/

/-- A checked command keeps the build where its result does: the other end only writes a code. -/
theorem State.ecChecked_keeps_build {s s' t : State} {qs : List Point} (h : s.ecChecked qs s' = .next t)
    (hb : s'.build = s.build) : t.build = s.build := by
  rcases State.ecChecked_cases h with ⟨-, rfl⟩ | ⟨-, rfl⟩
  · exact hb
  · rfl

theorem exec_keeps_build {i : Instr} {s t : State} (h : exec i s = .next t) : t.build = s.build := by
  cases i with
  | nop => rw [execNop_cases h, State.succeed_build]
  | modred rd rs1 rs3 => rcases execModred_cases h with ⟨-, rfl⟩ | ⟨-, rfl⟩ <;> simp
  | modinv rd rs1 rs3 => rcases execModinv_cases h with ⟨-, rfl⟩ | ⟨-, -, rfl⟩ | ⟨-, v, -, rfl⟩ <;> simp
  | modpow rd rs1 rs2 rs3 => rcases execModpow_cases h with ⟨-, rfl⟩ | ⟨-, -, rfl⟩ <;> simp
  | mrround rs1 rs2 => rcases execMrround_cases h with ⟨-, rfl⟩ | ⟨-, rfl⟩ <;> simp
  | isprime rs1 rounds => simp [execIsprime_cases h]
  | econcurve ps1 => exact State.ecChecked_keeps_build h (State.setT_build ..)
  | ecneg pd ps1 => exact State.ecChecked_keeps_build h (State.setPt_build ..)
  | ecdbl pd ps1 => exact State.ecChecked_keeps_build h (State.setPt_build ..)
  | ecadd pd ps1 ps2 => exact State.ecChecked_keeps_build h (State.setPt_build ..)
  | ecsmul pd rk ps1 => exact State.ecChecked_keeps_build h (State.setPt_build ..)

theorem engineTurn_keeps_build {s t : State} (h : engineTurn s = .next t) : t.build = s.build := by
  rcases engineTurn_cases h with ⟨-, rfl⟩ | ⟨-, -, rfl⟩ | ⟨-, i, -, hi⟩
  · rfl
  · exact State.raise_build s .illegalCommand
  · exact exec_keeps_build hi

@[simp] theorem State.writeWide_build (s : State) (v : WideReg) (k : Nat) (d : Word) :
    (s.writeWide v k d).build = s.build := rfl

@[simp] theorem State.busWrite_build (s : State) (wa : WordAddr) (d : Word) : (s.busWrite wa d).build = s.build := by
  rcases s.busWrite_cases wa d with h | h | h | h | ⟨-, h⟩ | ⟨-, h | h | ⟨v, k, h⟩⟩ <;> simp [h]

theorem performEvent_keeps_build {e : Event} {s t : State} (h : performEvent e s = .next t) : t.build = s.build := by
  rcases performEvent_cases h with ⟨wa, -, rfl⟩ | ⟨wa, d, -, rfl⟩ | ⟨-, rfl⟩ | ⟨-, ht⟩
  · exact s.answerRead_build _
  · exact s.busWrite_build wa d
  · exact s.resetEngine_build
  · exact engineTurn_keeps_build ht

/-- Settles O20: each end of the engine's turn and each host event keeps the build. -/
theorem stepKeepsTheBuild : Obligations.StepKeepsTheBuild := by
  intro s t h
  rcases step_cases h with ⟨-, ht⟩ | ⟨e, rest, -, he⟩
  · exact engineTurn_keeps_build ht
  · exact (performEvent_keeps_build he).trans (s.setSchedule_build rest)

/-! ## The inverse (R13) -/

/-- One pass of the loop replaces the larger remainder by the remainder of the division. -/
theorem euclidLoop_succ (fuel : Nat) (r0 t0 t1 : Int) {r1 : Int} (h : r1 ≠ 0) :
    euclidLoop (fuel + 1) r0 r1 t0 t1 = euclidLoop fuel r1 (r0 % r1) t1 (t0 - r0 / r1 * t1) := by
  rw [euclidLoop, if_neg h, Int.emod_def, mul_comm r1]

@[simp] theorem euclidLoop_zero_right (fuel : Nat) (r0 t0 t1 : Int) : euclidLoop fuel r0 0 t0 t1 = (r0, t0) := by
  cases fuel <;> simp [euclidLoop]

/-- A pass at least halves the product of the two remainders. -/
theorem two_mul_mul_emod_le {r0 r1 : Int} (h0 : 0 < r1) (h1 : r1 < r0) : 2 * (r1 * (r0 % r1)) ≤ r0 * r1 := by
  have hlt : r0 % r1 < r1 := Int.emod_lt_of_pos r0 h0
  have hle : r1 * 1 ≤ r1 * (r0 / r1) := by
    gcongr
    exact (Int.le_ediv_iff_mul_le h0).2 (by omega)
  have hdiv : r1 * (r0 / r1) + r0 % r1 = r0 := Int.mul_ediv_add_emod r0 r1
  have hhalf : 2 * (r0 % r1) ≤ r0 := by omega
  calc 2 * (r1 * (r0 % r1)) = 2 * (r0 % r1) * r1 := by ring
    _ ≤ r0 * r1 := by gcongr

/-- The loop ends at the greatest common divisor if it has a pass for each halving of the product of the remainders. -/
theorem euclidLoop_fst_eq_gcd (fuel : Nat) (r0 r1 t0 t1 : Int) (h0 : 0 ≤ r1) (h1 : r1 < r0)
    (hf : r0 * r1 < 2 ^ fuel) : (euclidLoop fuel r0 r1 t0 t1).1 = Int.gcd r0 r1 := by
  induction fuel generalizing r0 r1 t0 t1 with
  | zero =>
    obtain rfl : r1 = 0 := by nlinarith
    simp [abs_of_pos h1]
  | succ fuel ih =>
    rcases h0.eq_or_lt with rfl | hpos
    · simp [abs_of_pos h1]
    · have hprod : r1 * (r0 % r1) < 2 ^ fuel := by
        have := two_mul_mul_emod_le hpos h1
        rw [pow_succ] at hf
        omega
      rw [euclidLoop_succ fuel r0 t0 t1 hpos.ne',
        ih r1 (r0 % r1) t1 _ (Int.emod_nonneg r0 hpos.ne') (Int.emod_lt_of_pos r0 hpos) hprod,
        Int.gcd_comm, Int.gcd_emod]

/-- The loop keeps Bézout's congruence: `a` times the coefficient is the remainder modulo `m`. -/
theorem euclidLoop_modEq {a m : Int} (fuel : Nat) (r0 r1 t0 t1 : Int) (h0 : a * t0 ≡ r0 [ZMOD m])
    (h1 : a * t1 ≡ r1 [ZMOD m]) :
    a * (euclidLoop fuel r0 r1 t0 t1).2 ≡ (euclidLoop fuel r0 r1 t0 t1).1 [ZMOD m] := by
  induction fuel generalizing r0 r1 t0 t1 with
  | zero => exact h0
  | succ fuel ih =>
    by_cases hr : r1 = 0
    · subst hr
      simpa using h0
    · have hnext : a * (t0 - r0 / r1 * t1) ≡ r0 % r1 [ZMOD m] := by
        calc a * (t0 - r0 / r1 * t1) = a * t0 - r0 / r1 * (a * t1) := by ring
          _ ≡ r0 - r0 / r1 * r1 [ZMOD m] := h0.sub (h1.mul_left _)
          _ = r0 % r1 := by rw [Int.emod_def, mul_comm r1]
      rw [euclidLoop_succ fuel r0 t0 t1 hr]
      exact ih r1 (r0 % r1) t1 _ h1 hnext

/-- The passes of `inv` are enough for its first two remainders. -/
theorem mul_emod_lt_two_pow_euclidFuel (a : Int) {m : Int} (hm : 1 ≤ m) : m * (a % m) < 2 ^ euclidFuel m := by
  have hlog : m < 2 ^ (m.toNat.log2 + 1) := by
    have := Nat.lt_log2_self (n := m.toNat)
    zify at this
    omega
  have hlt : a % m < m := Int.emod_lt_of_pos a (by omega)
  calc m * (a % m) ≤ m * m := by gcongr
    _ ≤ 2 ^ (m.toNat.log2 + 1) * 2 ^ (m.toNat.log2 + 1) := by gcongr
    _ = 2 ^ (2 * m.toNat.log2 + 2) := by rw [← pow_add]; congr 1; ring
    _ < 2 ^ euclidFuel m := pow_lt_pow_right₀ (by norm_num) (by simp [euclidFuel])

/-- What `inv` answers: none on a common factor, else the residue of some `t` with `a * t` congruent to 1. -/
theorem inv_spec (a : Int) {m : Int} (hm : 1 ≤ m) :
    (Int.gcd (a % m) m ≠ 1 ∧ inv a m = none) ∨
      (Int.gcd (a % m) m = 1 ∧ ∃ t, a * t ≡ 1 [ZMOD m] ∧ inv a m = some (t % m)) := by
  have hgcd := euclidLoop_fst_eq_gcd (euclidFuel m) m (a % m) 0 1 (Int.emod_nonneg a (by omega))
    (Int.emod_lt_of_pos a (by omega)) (mul_emod_lt_two_pow_euclidFuel a hm)
  have hbez : a * (euclidLoop (euclidFuel m) m (a % m) 0 1).2 ≡
      (euclidLoop (euclidFuel m) m (a % m) 0 1).1 [ZMOD m] :=
    euclidLoop_modEq (euclidFuel m) m (a % m) 0 1 (by simp [Int.ModEq]) (by simp [Int.ModEq])
  rw [Int.gcd_comm] at hgcd
  by_cases h : Int.gcd (a % m) m = 1
  · rw [h] at hgcd
    rw [hgcd] at hbez
    exact .inr ⟨h, _, hbez, by simp [inv, emod, hgcd]⟩
  · exact .inl ⟨h, by simp [inv, emod, hgcd, h]⟩

theorem inv_eq_none_iff (a : Int) {m : Int} (hm : 1 ≤ m) : inv a m = none ↔ Int.gcd (a % m) m ≠ 1 := by
  rcases inv_spec a hm with ⟨hg, hi⟩ | ⟨hg, t, -, hi⟩ <;> simp [hg, hi]

/-- Only a number prime to the modulus has an inverse. -/
theorem gcd_emod_eq_one_of_dvd_mul_sub_one {a m x : Int} (h : m ∣ a * x - 1) : Int.gcd (a % m) m = 1 := by
  obtain ⟨k, hk⟩ := h
  rw [Int.gcd_emod, ← Int.isCoprime_iff_gcd_eq_one]
  exact ⟨x, -k, by linarith⟩

/-- Two inverses of one number are congruent. -/
theorem modEq_of_mul_modEq_one {a m t x : Int} (ht : a * t ≡ 1 [ZMOD m]) (hx : a * x ≡ 1 [ZMOD m]) :
    t ≡ x [ZMOD m] := by
  calc t = t * 1 := by ring
    _ ≡ t * (a * x) [ZMOD m] := hx.symm.mul_left t
    _ = a * t * x := by ring
    _ ≡ 1 * x [ZMOD m] := ht.mul_right x
    _ = x := by ring

theorem inv_eq_some_iff (a : Int) {m : Int} (hm : 1 ≤ m) (x : Int) :
    inv a m = some x ↔ 0 ≤ x ∧ x ≤ m - 1 ∧ m ∣ a * x - 1 := by
  rcases inv_spec a hm with ⟨hg, hi⟩ | ⟨-, t, ht, hi⟩
  · rw [hi]
    exact iff_of_false (by simp) fun ⟨_, _, hdvd⟩ => hg (gcd_emod_eq_one_of_dvd_mul_sub_one hdvd)
  · rw [hi, Option.some_inj]
    constructor
    · rintro rfl
      have hlt : t % m < m := Int.emod_lt_of_pos t (by omega)
      have hinv : a * (t % m) ≡ 1 [ZMOD m] := ((Int.mod_modEq t m).mul_left a).trans ht
      exact ⟨Int.emod_nonneg t (by omega), by omega, hinv.symm.dvd⟩
    · rintro ⟨h0, h1, hdvd⟩
      have htx : t % m = x % m := modEq_of_mul_modEq_one ht (Int.modEq_iff_dvd.2 hdvd).symm
      rw [htx, Int.emod_eq_of_lt h0 (by omega)]

/-- Settles O39: the loop ends at the greatest common divisor and keeps Bézout's congruence. -/
theorem inverseIsUniqueOrAbsent : Obligations.InverseIsUniqueOrAbsent :=
  fun a _ hm => ⟨inv_eq_some_iff a hm, inv_eq_none_iff a hm⟩

/-! ## The power (R14) -/

/-- One pass of repeated squaring keeps `r * s ^ e` modulo `m`. -/
theorem modpowPass_modEq (m r s : Int) (e : Nat) :
    (if e % 2 = 1 then emod (r * s) m else r) * emod (s * s) m ^ (e / 2) ≡ r * s ^ e [ZMOD m] := by
  have hsq : emod (s * s) m ^ (e / 2) ≡ (s * s) ^ (e / 2) [ZMOD m] := (Int.mod_modEq (s * s) m).pow _
  split
  case isTrue hodd =>
    calc emod (r * s) m * emod (s * s) m ^ (e / 2)
        ≡ r * s * (s * s) ^ (e / 2) [ZMOD m] := (Int.mod_modEq (r * s) m).mul hsq
      _ = r * s ^ (2 * (e / 2) + 1) := by ring
      _ = r * s ^ e := by rw [show 2 * (e / 2) + 1 = e by omega]
  case isFalse heven =>
    calc r * emod (s * s) m ^ (e / 2)
        ≡ r * (s * s) ^ (e / 2) [ZMOD m] := hsq.mul_left r
      _ = r * s ^ (2 * (e / 2)) := by ring
      _ = r * s ^ e := by rw [show 2 * (e / 2) = e by omega]

/-- From a reduced `r`, with a pass for each bit of `e`, the loop answers the residue of `r * s ^ e`. -/
theorem modpowLoop_eq (m : Int) (fuel : Nat) (r s : Int) (e : Nat) (hr : r % m = r) (he : e < 2 ^ fuel) :
    modpowLoop m fuel r s e = r * s ^ e % m := by
  induction fuel generalizing r s e with
  | zero =>
    obtain rfl : e = 0 := by simpa using he
    simp [modpowLoop, hr]
  | succ fuel ih =>
    by_cases h0 : e = 0
    · simp [modpowLoop, h0, hr]
    · have hr' : (if e % 2 = 1 then emod (r * s) m else r) % m = if e % 2 = 1 then emod (r * s) m else r := by
        split
        · exact Int.emod_emod (r * s) m
        · exact hr
      rw [modpowLoop, if_neg h0, ih _ _ (e / 2) hr' (by rw [pow_succ] at he; omega)]
      exact modpowPass_modEq m r s e

/-- `modpow` is the residue of the power, for every modulus. -/
theorem modpow_eq (b : Int) (e : Nat) (m : Int) : modpow b e m = b ^ e % m := by
  rw [modpow, modpowLoop_eq m (e.log2 + 1) (emod 1 m) (emod b m) e (Int.emod_emod 1 m) Nat.lt_log2_self]
  calc emod 1 m * emod b m ^ e
      ≡ 1 * b ^ e [ZMOD m] := (Int.mod_modEq 1 m).mul ((Int.mod_modEq b m).pow e)
    _ = b ^ e := one_mul _

/-- Settles O40: each pass of the loop keeps the reduced product, and the last one leaves exponent 0. -/
theorem repeatedSquaringIsThePower : Obligations.RepeatedSquaringIsThePower :=
  fun b m e _ => modpow_eq b e m

end Sys2Proof.Machine
end

section
/-! PROOFS. The statements of spec/10_state.md: the status invariant (R32, R36), what a command writes (R21, R22, R33),
what it does not see (R22, R25), and the six control words of the window (R29 to R38). -/

namespace Sys2Proof.Machine

/-! ## Reads after the writes a command makes -/

@[simp] theorem State.int_setInt (s : State) (v v' : WideReg) (n : Int) :
    (s.setInt v n).int v' = if v' = v then sint (enc s.build.W n) else s.int v' :=
  s.int_setWide v v' _

@[simp] theorem State.tag_setInt (s : State) (v : WideReg) (n : Int) (j : PIdx) : (s.setInt v n).tag j = s.tag j := rfl

@[simp] theorem State.int_setX (s : State) (i : RIdx) (v : WideReg) (n : Int) :
    (s.setX i n).int v = if v = .r i then sint (enc s.build.W n) else s.int v :=
  s.int_setInt (.r i) v n

@[simp] theorem State.tag_setX (s : State) (i : RIdx) (n : Int) (j : PIdx) : (s.setX i n).tag j = s.tag j := rfl

@[simp] theorem State.int_setDraws (s : State) (k : Nat) (v : WideReg) : (s.setDraws k).int v = s.int v := by
  cases v <;> rfl

@[simp] theorem State.tag_setDraws (s : State) (k : Nat) (j : PIdx) : (s.setDraws k).tag j = s.tag j := rfl

/-! ## How a command can end -/

/-- The ends of the command `i` from `s`: an error, no result, a result in an integer register and of the range of R21,
a result in a point register, or, for a predicate, a result in `T`. -/
inductive CommandEnd (i : Instr) (s : State) : State → Prop
  | raised (e : Error) : CommandEnd i s (s.raise e)
  | empty : CommandEnd i s s.succeed
  | integer (rd : RIdx) (n : Int) (h0 : 0 ≤ n) (h1 : n ≤ 2 ^ (s.build.W - 1) - 2) :
      CommandEnd i s (s.setX rd n).succeed
  | point (pd : PIdx) (q : Point) : CommandEnd i s (s.setPt pd q).succeed
  | flag (k : Nat) (c : Bool) (hp : isPredicate i = true) : CommandEnd i s ((s.setDraws k).setT c).succeed

theorem State.int_lt_two_pow (s : State) (v : WideReg) : s.int v < 2 ^ (s.build.W - 1) := BitVec.toInt_lt

/-- A value below a modulus that a register holds is of the range of R21. -/
theorem CommandEnd.integer_of_lt {i : Instr} {s : State} (rd rs3 : RIdx) {n : Int} (h0 : 0 ≤ n) (h1 : n < s.x rs3) :
    CommandEnd i s (s.setX rd n).succeed :=
  .integer rd n h0 (by have : s.x rs3 < 2 ^ (s.build.W - 1) := s.int_lt_two_pow (.r rs3); omega)

theorem CommandEnd.of_ecChecked {i : Instr} {s s' t : State} {qs : List Point} (h : s.ecChecked qs s' = .next t)
    (hs : CommandEnd i s s'.succeed) : CommandEnd i s t := by
  rcases State.ecChecked_cases h with ⟨-, rfl⟩ | ⟨-, rfl⟩
  · exact hs
  · exact .raised _

/-- Everything a command can do. -/
theorem exec_commandEnd {i : Instr} {s t : State} (h : exec i s = .next t) : CommandEnd i s t := by
  cases i with
  | nop =>
    rw [execNop_cases h]
    exact .empty
  | modred rd rs1 rs3 =>
    rcases execModred_cases h with ⟨-, rfl⟩ | ⟨hm, rfl⟩
    · exact .raised _
    · exact .integer_of_lt rd rs3 (Int.emod_nonneg _ (by omega)) (Int.emod_lt_of_pos _ (by omega))
  | modinv rd rs1 rs3 =>
    rcases execModinv_cases h with ⟨-, rfl⟩ | ⟨-, -, rfl⟩ | ⟨hm, v, hv, rfl⟩
    · exact .raised _
    · exact .raised _
    · obtain ⟨h0, h1, -⟩ := (inv_eq_some_iff _ hm v).1 hv
      exact .integer_of_lt rd rs3 h0 (by omega)
  | modpow rd rs1 rs2 rs3 =>
    rcases execModpow_cases h with ⟨-, rfl⟩ | ⟨hm, -, rfl⟩
    · exact .raised _
    · rw [modpow_eq]
      exact .integer_of_lt rd rs3 (Int.emod_nonneg _ (by omega)) (Int.emod_lt_of_pos _ (by omega))
  | mrround rs1 rs2 =>
    rcases execMrround_cases h with ⟨-, rfl⟩ | ⟨-, rfl⟩
    · exact .raised _
    · exact .flag s.draws _ rfl
  | isprime rs1 rounds =>
    rw [execIsprime_cases h]
    exact .flag _ _ rfl
  | econcurve ps1 => exact .of_ecChecked h (.flag s.draws _ rfl)
  | ecneg pd ps1 => exact .of_ecChecked h (.point pd _)
  | ecdbl pd ps1 => exact .of_ecChecked h (.point pd _)
  | ecadd pd ps1 ps2 => exact .of_ecChecked h (.point pd _)
  | ecsmul pd rk ps1 => exact .of_ecChecked h (.point pd _)

/-! ## The status invariant (R32, R36, R82) -/

theorem State.finish_coherent (s : State) {c : BitVec 4} (hc : c.toNat ≤ 3) : (s.finish c).Coherent := by
  simpa [State.Coherent] using hc

theorem State.succeed_coherent (s : State) : s.succeed.Coherent := s.finish_coherent (by decide)

theorem State.raise_coherent (s : State) (e : Error) : (s.raise e).Coherent :=
  s.finish_coherent (by cases e <;> decide)

theorem exec_coherent {i : Instr} {s t : State} (h : exec i s = .next t) : t.Coherent := by
  cases exec_commandEnd h with
  | raised e => exact s.raise_coherent e
  | empty => exact s.succeed_coherent
  | integer rd n => exact (s.setX rd n).succeed_coherent
  | point pd q => exact (s.setPt pd q).succeed_coherent
  | flag k c => exact ((s.setDraws k).setT c).succeed_coherent

theorem engineTurn_keeps_coherent {s t : State} (hs : s.Coherent) (h : engineTurn s = .next t) : t.Coherent := by
  rcases engineTurn_cases h with ⟨-, rfl⟩ | ⟨-, -, rfl⟩ | ⟨-, i, -, hi⟩
  · exact hs
  · exact s.raise_coherent .illegalCommand
  · exact exec_coherent hi

theorem State.writeStatus_coherent {s : State} (hs : s.Coherent) (d : Word) : (s.writeStatus d).Coherent := by
  obtain ⟨hbd, hbe, he⟩ := hs
  refine ⟨?_, hbe, he⟩
  rintro ⟨hb, hd⟩
  exact hbd ⟨hb, (Bool.and_eq_true_iff.1 hd).1⟩

/-- A host write keeps the invariant: the two writes that touch its fields are the accept, which clears `DONE` and
`ERR`, and write-one-to-clear, which sets nothing. -/
theorem State.busWrite_coherent {s : State} (hs : s.Coherent) (wa : WordAddr) (d : Word) :
    (s.busWrite wa d).Coherent := by
  rcases s.busWrite_cases wa d with h | h | h | h | ⟨-, h⟩ | ⟨-, h | h | ⟨v, k, h⟩⟩ <;> rw [h]
  · exact hs
  · simp [State.Coherent]
  · exact hs
  · exact State.writeStatus_coherent hs d
  · exact hs
  · simp [State.Coherent]
  · exact hs
  · exact hs

theorem performEvent_keeps_coherent {e : Event} {s t : State} (hs : s.Coherent) (h : performEvent e s = .next t) :
    t.Coherent := by
  rcases performEvent_cases h with ⟨wa, -, rfl⟩ | ⟨wa, d, -, rfl⟩ | ⟨-, rfl⟩ | ⟨-, ht⟩
  · exact hs
  · exact State.busWrite_coherent hs wa d
  · simp [State.Coherent]
  · exact engineTurn_keeps_coherent hs ht

/-- Settles O19: every end of a command is coherent, and the engine's turn and each host event keep the invariant. -/
theorem stepKeepsStatusCoherent : Obligations.StepKeepsStatusCoherent := by
  intro s t hs h
  rcases step_cases h with ⟨-, ht⟩ | ⟨e, rest, -, he⟩
  · exact engineTurn_keeps_coherent hs ht
  · exact performEvent_keeps_coherent (s := s.setSchedule rest) hs he

/-! ## What a command writes (R21, R22, R33) -/

/-- Settles O16: none of the ends of a command touches a curve register or a control field, and each is a `finish`. -/
theorem everyCommandKeepsCurveAndControl : Obligations.EveryCommandKeepsCurveAndControl := by
  intro s t i h
  cases exec_commandEnd h with
  | raised e => constructor <;> simp
  | empty => constructor <;> simp
  | integer rd n => constructor <;> simp
  | point pd q => constructor <;> simp
  | flag k c => constructor <;> simp

/-- Settles O18: only the end with an integer result writes an integer register, and its value fits. -/
theorem writtenIntegersAreInRange : Obligations.WrittenIntegersAreInRange := by
  intro s t i h j
  cases exec_commandEnd h with
  | raised e => exact .inl (s.int_raise e _)
  | empty => exact .inl (s.int_succeed _)
  | integer rd n h0 h1 =>
    have hx : (s.setX rd n).succeed.x j = if j = rd then n else s.x j :=
      ((s.setX rd n).int_succeed _).trans (s.x_setX rd j (fits_iff.2 (by omega)))
    rw [hx]
    split
    · exact .inr ⟨h0, h1⟩
    · exact .inl rfl
  | point pd q => exact .inl (by simp [State.x])
  | flag k c => exact .inl (by simp [State.x])

/-- A command writes `T` only as a predicate that ends without error (R33). -/
theorem exec_t {i : Instr} {s t : State} (h : exec i s = .next t) :
    t.t = s.t ∨ (isPredicate i = true ∧ t.err = 0) := by
  cases exec_commandEnd h with
  | flag k c hp => exact .inr ⟨hp, State.succeed_err _⟩
  | _ => exact .inl rfl

theorem engineTurn_t {s t : State} (h : engineTurn s = .next t) :
    t.t = s.t ∨ (s.busy = true ∧ t.err = 0 ∧ ∃ i, decode s.cmd = .command i ∧ isPredicate i = true) := by
  rcases engineTurn_cases h with ⟨-, rfl⟩ | ⟨-, -, rfl⟩ | ⟨hb, i, hd, hi⟩
  · exact .inl rfl
  · exact .inl rfl
  · exact (exec_t hi).imp_right fun ⟨hp, he⟩ => ⟨hb, he, i, hd, hp⟩

theorem State.guarded_t {s s' : State} (h : s'.t = s.t) : (s.guarded s').t = s.t := by
  rcases s.guarded_cases s' with ⟨-, hg⟩ | ⟨-, hg⟩ <;> rw [hg]
  · exact s.overrun_t
  · exact h

/-- A host write changes `T` only as the soft reset (R31). -/
theorem State.busWrite_t (s : State) (wa : WordAddr) (d : Word) :
    (s.busWrite wa d).t = s.t ∨
      ((s.busWrite wa d).t = false ∧ wa = wordAt 0x0008 ∧ d.getLsbD 1 = true) := by
  unfold State.busWrite
  split
  case h_3 hw =>
    unfold State.writeCtrl
    split
    · exact .inr ⟨s.resetEngine_t, windowAt_ctrl hw, ‹_›⟩
    · exact .inl rfl
  case h_5 | h_6 | h_7 => exact .inl (State.guarded_t rfl)
  all_goals exact .inl rfl

/-- Settles O17: by what a command, the engine's turn and a host write each do to `T`. -/
theorem onlyPredicatesWriteT : Obligations.OnlyPredicatesWriteT := by
  intro s
  refine ⟨fun t i h hi => ?_, s.accept_t, fun t h => ?_⟩
  · rcases exec_t h with ht | ⟨hp, he⟩
    · exact ht
    · simp [hp, he] at hi
  rcases step_cases h with ⟨hs, ht⟩ | ⟨e, rest, hs, he⟩
  · exact (engineTurn_t ht).imp_right fun ⟨hb, he, hi⟩ => .inr ⟨hb, he, .inl hs, hi⟩
  rcases performEvent_cases he with ⟨wa, -, rfl⟩ | ⟨wa, d, rfl, rfl⟩ | ⟨rfl, rfl⟩ | ⟨rfl, ht⟩
  · exact .inl rfl
  · rcases (s.setSchedule rest).busWrite_t wa d with ht | ⟨ht, rfl, hd⟩
    · exact .inl ht
    · exact .inr (.inl ⟨ht, rest, .inr ⟨d, hd, hs⟩⟩)
  · exact .inr (.inl ⟨State.resetEngine_t _, rest, .inl hs⟩)
  · exact (engineTurn_t ht).imp_right fun ⟨hb, he, hi⟩ => .inr ⟨hb, he, .inr ⟨rest, hs⟩, hi⟩

/-! ## What a command does not see (R22, R25) -/

/-- The integer a register of width `w` holds after `x[i] <- n` (R16). -/
def heldInt (w : Nat) (n : Int) : Int := sint (enc w n)

theorem State.x_setX_eq_heldInt (s : State) (i k : RIdx) (n : Int) :
    (s.setX i n).x k = if k = i then heldInt s.build.W n else s.x k := by
  simp [State.x, heldInt]

/-- The point a register of width `w` holds after `pt[j] <- Q` (R26). -/
def heldPoint (w : Nat) : Point → Point
  | .inf => .inf
  | .aff x y => .aff (heldInt w x) (heldInt w y)

theorem State.pt_setPt_eq_heldPoint (s : State) (j k : PIdx) (q : Point) :
    (s.setPt j q).pt k = if k = j then heldPoint s.build.W q else s.pt k := by
  by_cases hk : k = j
  · cases q <;> simp [State.pt, pointImage, heldPoint, heldInt, hk]
  · simp [State.pt, hk]

/-- Two states that show a command the same `p`, the same integers and points and the same next draw, and the host the
same `T` and `ERR`. The curve's `a` and `b`, and coordinates under a set tag, may differ. -/
structure SameResults (s s' : State) : Prop where
  build : s'.build = s.build
  curveP : s'.curveP = s.curveP
  err : s'.err = s.err
  t : s'.t = s.t
  draws : s'.draws = s.draws
  x : ∀ i, s'.x i = s.x i
  pt : ∀ j, s'.pt j = s.pt j

namespace SameResults

variable {s s' : State}

theorem finish (h : SameResults s s') (c : BitVec 4) : SameResults (s.finish c) (s'.finish c) where
  build := h.build
  curveP := by simpa [State.curveP] using h.curveP
  err := rfl
  t := h.t
  draws := h.draws
  x i := by simpa [State.x] using h.x i
  pt j := by simpa [State.pt] using h.pt j

theorem setT (h : SameResults s s') (c : Bool) : SameResults (s.setT c) (s'.setT c) where
  build := h.build
  curveP := by simpa [State.curveP] using h.curveP
  err := h.err
  t := rfl
  draws := h.draws
  x i := by simpa [State.x] using h.x i
  pt j := by simpa [State.pt] using h.pt j

theorem setDraws (h : SameResults s s') (k : Nat) : SameResults (s.setDraws k) (s'.setDraws k) where
  build := h.build
  curveP := by simpa [State.curveP] using h.curveP
  err := h.err
  t := h.t
  draws := rfl
  x i := by simpa [State.x] using h.x i
  pt j := by simpa [State.pt] using h.pt j

theorem setX (h : SameResults s s') (rd : RIdx) (n : Int) : SameResults (s.setX rd n) (s'.setX rd n) where
  build := h.build
  curveP := by simpa [State.curveP] using h.curveP
  err := h.err
  t := h.t
  draws := h.draws
  x i := by simp [State.x_setX_eq_heldInt, h.build, h.x]
  pt j := by simpa [State.pt] using h.pt j

theorem setPt (h : SameResults s s') (pd : PIdx) (q : Point) : SameResults (s.setPt pd q) (s'.setPt pd q) where
  build := h.build
  curveP := by simpa [State.curveP] using h.curveP
  err := h.err
  t := h.t
  draws := h.draws
  x i := by simpa [State.x] using h.x i
  pt j := by simp [State.pt_setPt_eq_heldPoint, h.build, h.pt]

end SameResults

/-- Both runs end, in states with the same results. -/
def EndAlike (o o' : Host.Outcome State Fault Refusal) : Prop :=
  ∃ t t', o = .next t ∧ o' = .next t' ∧ SameResults t t'

namespace EndAlike

variable {s s' u u' : State}

theorem succeed (h : SameResults s s') : EndAlike (.next s.succeed) (.next s'.succeed) :=
  ⟨_, _, rfl, rfl, h.finish 0⟩

theorem raise (h : SameResults s s') (e : Error) : EndAlike (.next (s.raise e)) (.next (s'.raise e)) :=
  ⟨_, _, rfl, rfl, h.finish e.code⟩

theorem ite {c : Prop} [Decidable c] {o₁ o₁' o₂ o₂' : Host.Outcome State Fault Refusal} (h₁ : EndAlike o₁ o₁')
    (h₂ : EndAlike o₂ o₂') : EndAlike (if c then o₁ else o₂) (if c then o₁' else o₂') := by
  split
  · exact h₁
  · exact h₂

theorem ecChecked (h : SameResults s s') (hu : SameResults u u') (qs : List Point) :
    EndAlike (s.ecChecked qs u) (s'.ecChecked qs u') := by
  unfold State.ecChecked
  rw [h.curveP]
  exact .ite (.succeed hu) (.raise h _)

end EndAlike

/-! Each function of the curve takes `a` and `b` modulo `p` only. -/

theorem ecOn_congr {a a' b b' p : Int} (ha : a' ≡ a [ZMOD p]) (hb : b' ≡ b [ZMOD p]) (q : Point) :
    ecOn a' b' p q = ecOn a b p q := by
  cases q with
  | inf => rfl
  | aff x y =>
    have h : emod (y * y - (x * x * x + a' * x + b')) p = emod (y * y - (x * x * x + a * x + b)) p :=
      (((ha.mul_right x).add_left _).add hb).sub_left _
    rw [ecOn, h, ecOn]

theorem ecDbl_congr {a a' p : Int} (ha : a' ≡ a [ZMOD p]) (q : Point) : ecDbl a' p q = ecDbl a p q := by
  cases q with
  | inf => rfl
  | aff x y =>
    have h (i : Int) : emod ((3 * x * x + a') * i) p = emod ((3 * x * x + a) * i) p :=
      (ha.add_left _).mul_right i
    simp only [ecDbl, h]

theorem ecAdd_congr {a a' p : Int} (ha : a' ≡ a [ZMOD p]) (q₁ q₂ : Point) : ecAdd a' p q₁ q₂ = ecAdd a p q₁ q₂ := by
  cases q₁ <;> cases q₂ <;> simp only [ecAdd, ecDbl_congr ha]

theorem smulLoop_congr {a a' p : Int} (ha : a' ≡ a [ZMOD p]) (fuel k : Nat) (acc addend : Point) :
    smulLoop a' p fuel k acc addend = smulLoop a p fuel k acc addend := by
  induction fuel generalizing k acc addend with
  | zero => rfl
  | succ fuel ih => simp only [smulLoop, ecAdd_congr ha, ecDbl_congr ha, ih]

theorem ecSmul_congr {a a' p : Int} (ha : a' ≡ a [ZMOD p]) (k : Int) (q : Point) :
    ecSmul a' p k q = ecSmul a p k q := by
  simp only [ecSmul, doubleAndAdd, smulFrom, smulLoop_congr ha]

/-- Two states that show a command the same operands, with `a` and, for ECONCURVE, `b` equal modulo `p`, end alike. -/
theorem exec_endAlike {s s' : State} (h : SameResults s s') (i : Instr) (ha : s'.curveA ≡ s.curveA [ZMOD s.curveP])
    (hb : (∀ ps1, i ≠ .econcurve ps1) ∨ s'.curveB ≡ s.curveB [ZMOD s.curveP]) :
    EndAlike (exec i s) (exec i s') := by
  cases i with
  | nop => exact .succeed h
  | modred rd rs1 rs3 =>
    simp only [exec, execModred, h.x]
    exact .ite (.raise h _) (.succeed (h.setX rd _))
  | modinv rd rs1 rs3 =>
    simp only [exec, execModinv, h.x]
    cases inv (s.x rs1) (s.x rs3) with
    | none => exact .ite (.raise h _) (.raise h _)
    | some v => exact .ite (.raise h _) (.succeed (h.setX rd v))
  | modpow rd rs1 rs2 rs3 =>
    simp only [exec, execModpow, h.x]
    exact .ite (.raise h _) (.succeed (h.setX rd _))
  | mrround rs1 rs2 =>
    simp only [exec, execMrround, h.x]
    exact .ite (.raise h _) (.succeed (h.setT _))
  | isprime rs1 rounds =>
    simp only [exec, execIsprime, h.x, h.draws]
    exact .succeed ((h.setDraws _).setT _)
  | econcurve ps1 =>
    have hb : s'.curveB ≡ s.curveB [ZMOD s.curveP] := hb.resolve_left fun hne => hne ps1 rfl
    simp only [exec, execEconcurve, h.pt, h.curveP, ecOn_congr ha hb]
    exact .ecChecked h (h.setT _) _
  | ecneg pd ps1 =>
    simp only [exec, execEcneg, h.pt, h.curveP]
    exact .ecChecked h (h.setPt pd _) _
  | ecdbl pd ps1 =>
    simp only [exec, execEcdbl, h.pt, h.curveP, ecDbl_congr ha]
    exact .ecChecked h (h.setPt pd _) _
  | ecadd pd ps1 ps2 =>
    simp only [exec, execEcadd, h.pt, h.curveP, ecAdd_congr ha]
    exact .ecChecked h (h.setPt pd _) _
  | ecsmul pd rk ps1 =>
    simp only [exec, execEcsmul, h.pt, h.x, h.curveP, ecSmul_congr ha]
    exact .ecChecked h (h.setPt pd _) _

/-- The two noninterference statements from their common form. -/
theorem EndAlike.exists_next {o o' : Host.Outcome State Fault Refusal} {t : State} (h : EndAlike o o')
    (ho : o = .next t) :
    ∃ t', o' = .next t' ∧ t'.err = t.err ∧ t'.t = t.t ∧ t'.draws = t.draws ∧ (∀ k, t'.x k = t.x k) ∧
      ∀ k, t'.pt k = t.pt k := by
  obtain ⟨_, t', rfl, ho', hr⟩ := h
  cases ho
  exact ⟨t', ho', hr.err, hr.t, hr.draws, hr.x, hr.pt⟩

theorem sameResults_setInt_tagged {s : State} {j : PIdx} (x y : Int) (hj : s.tag j = true) :
    SameResults s ((s.setInt (.px j) x).setInt (.py j) y) where
  build := rfl
  curveP := by simp [State.curveP]
  err := rfl
  t := rfl
  draws := rfl
  x i := by simp [State.x]
  pt k := by
    by_cases hk : k = j
    · simp [State.pt, hk, hj]
    · simp [State.pt, hk]

/-- Settles O57: under a set tag `pt[j]` is `Inf` whatever the coordinates, and a command reads points through `pt`. -/
theorem taggedCoordinatesAreIgnored : Obligations.TaggedCoordinatesAreIgnored := by
  intro s t i j x y hj h
  have hA : ((s.setInt (.px j) x).setInt (.py j) y).curveA ≡ s.curveA [ZMOD s.curveP] := by
    simp [State.curveA]
  have hB : ((s.setInt (.px j) x).setInt (.py j) y).curveB ≡ s.curveB [ZMOD s.curveP] := by
    simp [State.curveB]
  exact (exec_endAlike (sameResults_setInt_tagged x y hj) i hA (.inr hB)).exists_next h

theorem sameResults_setInt_coefficients (s : State) (a b : Int) :
    SameResults s ((s.setInt .ca a).setInt .cb b) where
  build := rfl
  curveP := by simp [State.curveP]
  err := rfl
  t := rfl
  draws := rfl
  x i := by simp [State.x]
  pt k := by simp [State.pt]

/-- Settles O58: each function of the curve takes `a` and `b` modulo `p`, and only `ec_on` takes `b`. -/
theorem coefficientsActAsResidues : Obligations.CoefficientsActAsResidues := by
  intro s t i a b hfa hfb ha hb h
  have hW : 0 < s.build.W := Nat.lt_of_lt_of_le (by decide : 0 < 64) (Config.Build.W_pos s.build)
  have hA : ((s.setInt .ca a).setInt .cb b).curveA = a := by simp [State.curveA, sint_enc hW hfa]
  have hB : ((s.setInt .ca a).setInt .cb b).curveB = b := by simp [State.curveB, sint_enc hW hfb]
  refine (exec_endAlike (sameResults_setInt_coefficients s a b) i ?_ (hb.imp_right fun hb => ?_)).exists_next h
  · rw [hA]
    exact (Int.modEq_iff_dvd.2 ha).symm
  · rw [hB]
    exact (Int.modEq_iff_dvd.2 hb).symm

/-! ## The word of a command decodes to it (R98, R100) -/

/-- A word of a row carries the opcode of the row in bits 7 to 0. -/
theorem extractLsb'_eq_opcode_of_matchesWord {o : Op} {c : Word} (h : o.matchesWord c = true) :
    c.extractLsb' 0 8 = o.opcode := by
  have hmask : o.mask.extractLsb' 0 8 = BitVec.allOnes 8 := by cases o <;> rfl
  have hpattern : o.pattern.extractLsb' 0 8 = o.opcode := by cases o <;> rfl
  have hlow : (c &&& o.mask).extractLsb' 0 8 = o.pattern.extractLsb' 0 8 := congrArg _ (eq_of_beq h)
  rwa [BitVec.extractLsb'_and, hmask, BitVec.and_allOnes, hpattern] at hlow

theorem op_mem_all (o : Op) : o ∈ Op.all := by cases o <;> decide

theorem opcode_injective : Function.Injective Op.opcode := by
  have h : ∀ o ∈ Op.all, ∀ o' ∈ Op.all, o.opcode = o'.opcode → o = o' := by decide
  exact fun o o' => h o (op_mem_all o) o' (op_mem_all o')

/-- The rows exclude each other, since their opcodes differ. -/
theorem eq_of_matchesWord {o o' : Op} {c : Word} (h : o.matchesWord c = true) (h' : o'.matchesWord c = true) : o = o' :=
  opcode_injective <|
    (extractLsb'_eq_opcode_of_matchesWord h).symm.trans (extractLsb'_eq_opcode_of_matchesWord h')

/-- A word of a row decodes to the command of that row with the fields of the word. -/
theorem decode_of_matchesWord {o : Op} {c : Word} (h : o.matchesWord c = true) :
    decode c = .command (o.operands c) := by
  unfold decode
  split
  · rename_i o' ho'
    have h' : o'.matchesWord c = true := List.find?_some (p := (Op.matchesWord · c)) ho'
    rw [eq_of_matchesWord h h']
  · rename_i hnone
    exact absurd h (List.find?_eq_none.1 hnone o (op_mem_all o))

/-! The fields of the formats that the encoder fills (R92 to R94). -/

section
variable (op : BitVec 8) (rd rs1 rs2 rs3 rk : RIdx) (imm : BitVec 16) (pd ps1 ps2 : PIdx)

/-- Three bits of a word that are those of an index are that field. -/
theorem fieldR_eq {c : Word} {lo : Nat} {i : RIdx} (h : c.extractLsb' lo 3 = rBits i) : fieldR c lo = i :=
  congrArg BitVec.toFin h

/-- Two bits of a word that are those of an index are that field. -/
theorem fieldP_eq {c : Word} {lo : Nat} {j : PIdx} (h : c.extractLsb' lo 2 = pBits j) : fieldP c lo = j :=
  congrArg BitVec.toFin h

@[simp] theorem fieldR_formatM_rd : fieldR (formatM op rd rs1 rs2 rs3) 8 = rd := by
  refine fieldR_eq (BitVec.eq_of_getLsbD_eq fun i hi => ?_)
  interval_cases i <;> simp [formatM, place]

@[simp] theorem fieldR_formatM_rs1 : fieldR (formatM op rd rs1 rs2 rs3) 12 = rs1 := by
  refine fieldR_eq (BitVec.eq_of_getLsbD_eq fun i hi => ?_)
  interval_cases i <;> simp [formatM, place]

@[simp] theorem fieldR_formatM_rs2 : fieldR (formatM op rd rs1 rs2 rs3) 16 = rs2 := by
  refine fieldR_eq (BitVec.eq_of_getLsbD_eq fun i hi => ?_)
  interval_cases i <;> simp [formatM, place]

@[simp] theorem fieldR_formatM_rs3 : fieldR (formatM op rd rs1 rs2 rs3) 20 = rs3 := by
  refine fieldR_eq (BitVec.eq_of_getLsbD_eq fun i hi => ?_)
  interval_cases i <;> simp [formatM, place]

@[simp] theorem fieldR_formatI_rs1 : fieldR (formatI op rs1 imm) 12 = rs1 := by
  refine fieldR_eq (BitVec.eq_of_getLsbD_eq fun i hi => ?_)
  interval_cases i <;> simp [formatI, place]

@[simp] theorem fieldRounds_formatI : fieldRounds (formatI op rs1 imm) = imm.toNat := by
  refine congrArg BitVec.toNat (BitVec.eq_of_getLsbD_eq fun i hi => ?_)
  interval_cases i <;> simp [formatI, place]

@[simp] theorem fieldP_formatE_pd : fieldP (formatE op pd ps1 ps2 rk) 8 = pd := by
  refine fieldP_eq (BitVec.eq_of_getLsbD_eq fun i hi => ?_)
  interval_cases i <;> simp [formatE, place]

@[simp] theorem fieldP_formatE_ps1 : fieldP (formatE op pd ps1 ps2 rk) 12 = ps1 := by
  refine fieldP_eq (BitVec.eq_of_getLsbD_eq fun i hi => ?_)
  interval_cases i <;> simp [formatE, place]

@[simp] theorem fieldP_formatE_ps2 : fieldP (formatE op pd ps1 ps2 rk) 16 = ps2 := by
  refine fieldP_eq (BitVec.eq_of_getLsbD_eq fun i hi => ?_)
  interval_cases i <;> simp [formatE, place]

@[simp] theorem fieldR_formatE_rk : fieldR (formatE op pd ps1 ps2 rk) 20 = rk := by
  refine fieldR_eq (BitVec.eq_of_getLsbD_eq fun i hi => ?_)
  interval_cases i <;> simp [formatE, place]

end

/-- The fields of the word of a well-formed command are the operands of the command. -/
theorem operands_encode {i : Instr} (h : i.wellFormed = true) : i.op.operands (encode i) = i := by
  cases i with
  | isprime rs1 rounds =>
    have hr : rounds ≤ 65535 := of_decide_eq_true h
    simp [Instr.op, Op.operands, encode, Nat.mod_eq_of_lt (show rounds < 65536 by omega)]
  | _ => simp [Instr.op, Op.operands, encode]

/-- The word of a command is a word of the row of the command (R98). -/
theorem op_matchesWord_encode (i : Instr) : i.op.matchesWord (encode i) = true :=
  match i with
  | .nop => Laws.MatchesRow.nop
  | .modred rd rs1 rs3 => Laws.MatchesRow.modred rd rs1 rs3
  | .modinv rd rs1 rs3 => Laws.MatchesRow.modinv rd rs1 rs3
  | .modpow rd rs1 rs2 rs3 => Laws.MatchesRow.modpow rd rs1 rs2 rs3
  | .mrround rs1 rs2 => Laws.MatchesRow.mrround rs1 rs2
  | .isprime rs1 rounds => Laws.MatchesRow.isprime rs1 rounds
  | .econcurve ps1 => Laws.MatchesRow.econcurve ps1
  | .ecneg pd ps1 => Laws.MatchesRow.ecneg pd ps1
  | .ecdbl pd ps1 => Laws.MatchesRow.ecdbl pd ps1
  | .ecadd pd ps1 ps2 => Laws.MatchesRow.ecadd pd ps1 ps2
  | .ecsmul pd rk ps1 => Laws.MatchesRow.ecsmul pd rk ps1

theorem decode_encode {i : Instr} (h : i.wellFormed = true) : decode (encode i) = .command i := by
  rw [decode_of_matchesWord (op_matchesWord_encode i), operands_encode h]

/-- A busy engine with no event before its turn performs the command it holds (R79). -/
theorem step_eq_exec {s : State} {i : Instr} (hs : s.schedule = []) (hb : s.busy = true)
    (hd : decode s.cmd = .command i) : step s = exec i s := by
  unfold step nextEvent
  rw [hs]
  simp [engineTurn, complete, hb, hd]

/-- Settles O4: the placed word is the word of the command, and it decodes to the command. -/
theorem placedWordIsTheNextCommand : Obligations.PlacedWordIsTheNextCommand := by
  intro s i h
  have hplace : s.withFetchWord 32 (encode i).toNat = s.placeCommand (encode i) := by
    rw [State.withFetchWord, Nat.mod_eq_of_lt (encode i).isLt, BitVec.ofNat_toNat, BitVec.setWidth_eq]
  rw [hplace]
  exact step_eq_exec rfl rfl (decode_encode h)

/-! ## The control words of the window (R29 to R38) -/

section
variable (s : State)

@[simp] theorem State.windowAt_wordAt_id : s.windowAt (wordAt 0x0000) = .id := rfl
@[simp] theorem State.windowAt_wordAt_config : s.windowAt (wordAt 0x0004) = .config := rfl
@[simp] theorem State.windowAt_wordAt_ctrl : s.windowAt (wordAt 0x0008) = .ctrl := rfl
@[simp] theorem State.windowAt_wordAt_status : s.windowAt (wordAt 0x000C) = .status := rfl
@[simp] theorem State.windowAt_wordAt_cmd : s.windowAt (wordAt 0x0010) = .cmd := rfl
@[simp] theorem State.windowAt_wordAt_ptag : s.windowAt (wordAt 0x0014) = .ptag := rfl

end

/-! What a read and a write of each kind of control word do (R63, R64). -/

section
variable {s : State} {wa : WordAddr}

theorem busRead_config (h : s.windowAt wa = .config) : s.busRead wa = configWord s.build.limbs := by
  simp [State.busRead, h]
theorem busRead_ctrl (h : s.windowAt wa = .ctrl) : s.busRead wa = s.ctrlWord := by simp [State.busRead, h]
theorem busRead_status (h : s.windowAt wa = .status) : s.busRead wa = s.statusWord := by simp [State.busRead, h]
theorem busRead_ptag (h : s.windowAt wa = .ptag) : s.busRead wa = s.ptagWord := by simp [State.busRead, h]

theorem busWrite_ctrl (h : s.windowAt wa = .ctrl) (d : Word) : s.busWrite wa d = s.writeCtrl d := by
  simp [State.busWrite, h]
theorem busWrite_cmd (h : s.windowAt wa = .cmd) (d : Word) : s.busWrite wa d = s.guarded (s.accept d) := by
  simp [State.busWrite, h]
theorem busWrite_ptag (h : s.windowAt wa = .ptag) (d : Word) : s.busWrite wa d = s.guarded (s.writePtag d) := by
  simp [State.busWrite, h]

end

theorem State.guarded_of_idle {s : State} (h : s.busy = false) (s' : State) : s.guarded s' = s' := by
  simp [State.guarded, h]

theorem State.guarded_of_busy {s : State} (h : s.busy = true) (s' : State) : s.guarded s' = s.overrun := by
  simp [State.guarded, h]

/-! `ID` and `CONFIG` -/

theorem extractLsb'_configWord_limbs (limbs : Nat) :
    (configWord limbs).extractLsb' 0 16 = BitVec.ofNat 16 limbs := by
  refine BitVec.eq_of_getLsbD_eq fun i hi => ?_
  interval_cases i <;> simp [configWord, place]

theorem extractLsb'_configWord_nr (limbs : Nat) : (configWord limbs).extractLsb' 16 4 = 8 := by
  refine BitVec.eq_of_getLsbD_eq fun i hi => ?_
  interval_cases i <;> simp [configWord, place]

theorem extractLsb'_configWord_np (limbs : Nat) : (configWord limbs).extractLsb' 20 4 = 4 := by
  refine BitVec.eq_of_getLsbD_eq fun i hi => ?_
  interval_cases i <;> simp [configWord, place]

theorem extractLsb'_configWord_top (limbs : Nat) : (configWord limbs).extractLsb' 24 8 = 0 := by
  refine BitVec.eq_of_getLsbD_eq fun i hi => ?_
  interval_cases i <;> simp [configWord, place]

/-- Settles O24: the fields of `CONFIG` do not overlap, and `LIMBS <= 128` fits the lowest one. -/
theorem idAndConfigAreConstants : Obligations.IdAndConfigAreConstants := by
  intro s
  have hlimbs := s.build.limbs_le_max
  rw [busRead_config s.windowAt_wordAt_config, extractLsb'_configWord_limbs, extractLsb'_configWord_nr,
    extractLsb'_configWord_np, extractLsb'_configWord_top, BitVec.toNat_ofNat]
  exact ⟨rfl, Nat.mod_eq_of_lt (by omega), rfl, rfl, rfl, fun d => ⟨rfl, rfl⟩⟩

/-! `CTRL` -/

theorem State.ctrlWord_eq (s : State) : s.ctrlWord = if s.ie then 1 else 0 := by
  cases h : s.ie <;> simp [State.ctrlWord, flagAt, place, h]

/-- Settles O25: by the two cases of bit 1 of the word written. -/
theorem ctrlWriteSetsEnableOrResets : Obligations.CtrlWriteSetsEnableOrResets := by
  intro s d
  rw [busWrite_ctrl s.windowAt_wordAt_ctrl, busRead_ctrl s.windowAt_wordAt_ctrl, s.ctrlWord_eq]
  refine ⟨fun h => ?_, fun h => ?_, rfl, rfl, rfl⟩
  · rw [State.writeCtrl, h]
    rfl
  · rw [State.writeCtrl, if_pos h]

/-! `STATUS` -/

section
variable (s : State)

theorem State.statusWord_busy : s.statusWord.getLsbD 0 = s.busy := by simp [State.statusWord, flagAt, place]
theorem State.statusWord_done : s.statusWord.getLsbD 1 = s.done := by simp [State.statusWord, flagAt, place]
theorem State.statusWord_t : s.statusWord.getLsbD 2 = s.t := by simp [State.statusWord, flagAt, place]
theorem State.statusWord_ovr : s.statusWord.getLsbD 3 = s.ovr := by simp [State.statusWord, flagAt, place]

theorem State.statusWord_err : s.statusWord.extractLsb' 4 4 = s.err := by
  refine BitVec.eq_of_getLsbD_eq fun i hi => ?_
  interval_cases i <;> simp [State.statusWord, flagAt, place]

theorem State.statusWord_top : s.statusWord.extractLsb' 8 24 = 0 := by
  refine BitVec.eq_of_getLsbD_eq fun i hi => ?_
  interval_cases i <;> simp [State.statusWord, flagAt, place]

end

/-- Settles O26: field by field of the word. -/
theorem statusLayoutAndWriteOneToClear : Obligations.StatusLayoutAndWriteOneToClear := by
  intro s d
  rw [busRead_status s.windowAt_wordAt_status]
  exact ⟨s.statusWord_busy, s.statusWord_done, s.statusWord_t, s.statusWord_ovr, s.statusWord_err, s.statusWord_top,
    rfl⟩

/-! `CMD` -/

/-- Settles O27: by the busy rule (R81). -/
theorem cmdWriteIsTheAccept : Obligations.CmdWriteIsTheAccept := by
  intro s d
  rw [busWrite_cmd s.windowAt_wordAt_cmd]
  exact ⟨fun h => State.guarded_of_idle h _, fun h => State.guarded_of_busy h _, rfl⟩

/-! `PTAG` -/

theorem State.ptagWord_getLsbD (s : State) (j : PIdx) : s.ptagWord.getLsbD j.val = s.tag j := by
  have hj : j.val < 32 := by omega
  simp [State.ptagWord, State.tag, place, hj]

theorem State.extractLsb'_ptagWord (s : State) : s.ptagWord.extractLsb' 4 28 = 0 := by
  refine BitVec.eq_of_getLsbD_eq fun i hi => ?_
  simp [State.ptagWord, place]

@[simp] theorem State.tag_writePtag (s : State) (d : Word) (j : PIdx) : (s.writePtag d).tag j = d.getLsbD j.val := by
  simp [State.tag, State.writePtag]

@[simp] theorem State.tag_resetEngine (s : State) (j : PIdx) : s.resetEngine.tag j = false := by
  simp [State.tag]

/-- Settles O28: by the busy rule (R81), with the layout of the word. -/
theorem ptagWriteReplacesAllFourTags : Obligations.PtagWriteReplacesAllFourTags := by
  intro s d
  rw [busRead_ptag s.windowAt_wordAt_ptag, busWrite_ptag s.windowAt_wordAt_ptag]
  refine ⟨s.ptagWord_getLsbD, s.extractLsb'_ptagWord, s.tag_resetEngine, fun h => ?_,
    fun h => State.guarded_of_busy h _⟩
  rw [State.guarded_of_idle h]
  exact ⟨rfl, s.tag_writePtag d⟩

end Sys2Proof.Machine
end

section
/-! PROOFS. The statements of spec/20_memory.md: the address map and its reserved words (R65, R66), limbs (R67, R68),
the order of events (R77, R79), the refusal of a narrow access (R70), the busy rule (R81 to R83). -/

namespace Sys2Proof.Machine

/-! ## The step by the head of the schedule (R77, R79) -/

section
variable {s : State}

theorem step_of_schedule_nil (h : s.schedule = []) : step s = engineTurn s := by
  simp [step, nextEvent, h]

theorem step_of_schedule_cons {e : Event} {rest : List Event} (h : s.schedule = e :: rest) :
    step s = performEvent e (s.setSchedule rest) := by
  simp [step, nextEvent, h]

theorem engineTurn_of_command {i : Instr} (hb : s.busy = true) (hd : decode s.cmd = .command i) :
    engineTurn s = exec i s := by
  simp [engineTurn, complete, hb, hd]

theorem engineTurn_of_illegal (hb : s.busy = true) (hd : decode s.cmd = .illegalCommand) :
    engineTurn s = .next (s.raise .illegalCommand) := by
  simp [engineTurn, complete, hb, hd]

theorem engineTurn_of_idle (hb : s.busy = false) : engineTurn s = .next s := by
  simp [engineTurn, hb]

end

/-- Settles O3: by what the engine's turn is for a legal word, an illegal word and an idle engine. -/
theorem stepRunsTheAcceptedCommand : Obligations.StepRunsTheAcceptedCommand := by
  intro s
  refine ⟨fun i hb hd => ⟨fun hs => ?_, fun rest hs => ?_⟩, fun hb hd => ⟨fun hs => ?_, fun rest hs => ?_⟩,
    fun hb => ⟨fun hs => ?_, fun rest hs => ?_⟩⟩
  · exact (step_of_schedule_nil hs).trans (engineTurn_of_command hb hd)
  · exact (step_of_schedule_cons hs).trans (engineTurn_of_command (s := s.setSchedule rest) hb hd)
  · exact (step_of_schedule_nil hs).trans (engineTurn_of_illegal hb hd)
  · exact (step_of_schedule_cons hs).trans (engineTurn_of_illegal (s := s.setSchedule rest) hb hd)
  · exact (step_of_schedule_nil hs).trans (engineTurn_of_idle hb)
  · exact (step_of_schedule_cons hs).trans (engineTurn_of_idle (s := s.setSchedule rest) hb)

/-- A read does not see the events still to come. -/
theorem State.busRead_setSchedule (s : State) (es : List Event) (wa : WordAddr) :
    (s.setSchedule es).busRead wa = s.busRead wa := rfl

/-- Settles O31: the step performs the first event, and a read does not see the list of events. -/
theorem hostReadChangesNothing : Obligations.HostReadChangesNothing := by
  intro s rest
  refine ⟨fun wa hs => ?_, fun wa d hs => step_of_schedule_cons hs, fun hs => step_of_schedule_cons hs⟩
  rw [step_of_schedule_cons hs, performEvent, s.busRead_setSchedule]
  rfl

/-! ## The one refusal (R70, R240) -/

theorem SameResults.refl (s : State) : SameResults s s where
  build := rfl
  curveP := rfl
  err := rfl
  t := rfl
  draws := rfl
  x _ := rfl
  pt _ := rfl

/-- Every command comes to an end (R240). -/
theorem exec_exists_next (i : Instr) (s : State) : ∃ t, exec i s = .next t := by
  obtain ⟨t, -, h, -⟩ := exec_endAlike (.refl s) i rfl (.inr rfl)
  exact ⟨t, h⟩

theorem engineTurn_exists_next (s : State) : ∃ t, engineTurn s = .next t := by
  cases hb : s.busy with
  | false => exact ⟨_, engineTurn_of_idle hb⟩
  | true =>
    cases hd : decode s.cmd with
    | command i =>
      rw [engineTurn_of_command hb hd]
      exact exec_exists_next i s
    | illegalCommand => exact ⟨_, engineTurn_of_illegal hb hd⟩

theorem engineTurn_ne_refused (s : State) (r : Refusal) : engineTurn s ≠ .refused r := by
  obtain ⟨t, h⟩ := engineTurn_exists_next s
  simp [h]

theorem performEvent_eq_refused_iff {e : Event} {s : State} {r : Refusal} :
    performEvent e s = .refused r ↔ r = .narrowAccess ∧ e = .narrow := by
  cases e with
  | narrow => simp [performEvent, eq_comm]
  | engine => simp [performEvent, engineTurn_ne_refused]
  | read wa => simp [performEvent]
  | write wa d => simp [performEvent]
  | hardReset => simp [performEvent]

/-- Settles O13: the engine's turn always has a next state, and of the events only the narrow access has none. -/
theorem onlyNarrowAccessesAreRefused : Obligations.OnlyNarrowAccessesAreRefused := by
  intro s r
  cases hs : s.schedule with
  | nil => simp [step_of_schedule_nil hs, engineTurn_ne_refused]
  | cons e rest => simp [step_of_schedule_cons hs, performEvent_eq_refused_iff]

/-! ## The address map (R65, R66) -/

/-- The slots of the wide registers (R65). -/
theorem slotOf_range (v : WideReg) : (8 ≤ slotOf v ∧ slotOf v ≤ 18) ∨ (24 ≤ slotOf v ∧ slotOf v ≤ 31) := by
  cases v <;> simp only [slotOf] <;> omega

theorem slotOwner_slotOf (v : WideReg) : slotOwner (slotOf v) = some v := by
  cases v with
  | r i => revert i; decide
  | ca => rfl
  | cb => rfl
  | cp => rfl
  | px j => revert j; decide
  | py j => revert j; decide

theorem slotOwner_eq_some_iff {slot : Nat} {v : WideReg} : slotOwner slot = some v ↔ slot = slotOf v := by
  refine ⟨fun h => ?_, fun h => h ▸ slotOwner_slotOf v⟩
  unfold slotOwner at h
  split_ifs at h with hr ha hb hp hpoint heven <;> cases h
  · change slot = 8 + (slot - 8) % 8
    omega
  · exact ha
  · exact hb
  · exact hp
  · change slot = 24 + 2 * ((slot - 24) / 2 % 4)
    omega
  · change slot = 25 + 2 * ((slot - 24) / 2 % 4)
    omega

theorem slotOf_injective : Function.Injective slotOf := fun v v' h => by
  rw [← Option.some_inj, ← slotOwner_slotOf v, h, slotOwner_slotOf v']

/-- Everything that can stand at a word: one of the six control words, a limb of the register that owns the slot, or
nothing. -/
theorem State.windowAt_cases (s : State) (wa : WordAddr) :
    (wa.toNat < 6 ∧ s.windowAt wa ≠ .reserved ∧ ∀ v k, s.windowAt wa ≠ .limb v k) ∨
      (∃ v k, wa.toNat = 128 * slotOf v + k ∧ k < s.build.limbs ∧ s.windowAt wa = .limb v k) ∨
      (6 ≤ wa.toNat ∧ (∀ v, wa.toNat / 128 = slotOf v → s.build.limbs ≤ wa.toNat % 128) ∧
        s.windowAt wa = .reserved) := by
  unfold State.windowAt windowReg
  split
  case h_7 _ h0 h1 h2 h3 h4 h5 =>
    rw [imp_false] at h0 h1 h2 h3 h4 h5
    have h6 : 6 ≤ wa.toNat := by omega
    split
    case h_1 hnone =>
      refine .inr (.inr ⟨h6, fun v hv => ?_, rfl⟩)
      rw [hv, slotOwner_slotOf] at hnone
      cases hnone
    case h_2 v hv =>
      have hslot := slotOwner_eq_some_iff.1 hv
      split
      · exact .inr (.inl ⟨v, wa.toNat % 128, by omega, ‹_›, rfl⟩)
      · exact .inr (.inr ⟨h6, fun _ _ => by omega, rfl⟩)
  all_goals exact .inl ⟨by omega, nofun, nofun⟩

/-- A limb stands at its place in the slot of its register and nowhere else. -/
theorem State.windowAt_eq_limb_iff {s : State} {wa : WordAddr} {v : WideReg} {k : Nat} :
    s.windowAt wa = .limb v k ↔ wa.toNat = 128 * slotOf v + k ∧ k < s.build.limbs := by
  have hmax := s.build.limbs_le_max
  have hslot := slotOf_range v
  rcases s.windowAt_cases wa with ⟨hwa, -, hne⟩ | ⟨v', k', hwa, hk, hw⟩ | ⟨-, hle, hw⟩
  · exact iff_of_false (hne v k) (by omega)
  · rw [hw, WindowReg.limb.injEq]
    constructor
    · rintro ⟨rfl, rfl⟩
      exact ⟨hwa, hk⟩
    · rintro ⟨hwa', hk'⟩
      exact ⟨slotOf_injective (by omega), by omega⟩
  · refine iff_of_false (by simp [hw]) fun ⟨hwa, hk⟩ => ?_
    have := hle v (by omega)
    omega

/-- Past the control words, a word is reserved unless it is a limb of the register that owns its slot. -/
theorem State.windowAt_eq_reserved {s : State} {wa : WordAddr} (h6 : 6 ≤ wa.toNat)
    (h : ∀ v, wa.toNat / 128 = slotOf v → s.build.limbs ≤ wa.toNat % 128) : s.windowAt wa = .reserved := by
  have hmax := s.build.limbs_le_max
  rcases s.windowAt_cases wa with ⟨hwa, -, -⟩ | ⟨v, k, hwa, hk, -⟩ | ⟨-, -, hw⟩
  · omega
  · have := h v (by omega)
    omega
  · exact hw

theorem toNat_wordAt {off : Nat} (h : off < 0x4000) : (wordAt off).toNat = off / 4 := by
  rw [wordAt, BitVec.toNat_ofNat, Nat.mod_eq_of_lt (by omega)]

/-- The reserved offsets of R66: the two ranges of slots that no register owns, and the words past the last limb. -/
theorem State.windowAt_wordAt_reserved {s : State} {off : Nat} (hoff : off < 0x4000)
    (h : (0x0018 ≤ off ∧ off ≤ 0x0FFC) ∨ (0x2600 ≤ off ∧ off ≤ 0x2FFC) ∨
      (0x1000 ≤ off ∧ s.build.limbs ≤ off % 0x200 / 4)) : s.windowAt (wordAt off) = .reserved := by
  have hwa := toNat_wordAt hoff
  refine State.windowAt_eq_reserved (by omega) fun v hv => ?_
  have hslot := slotOf_range v
  omega

/-- The offset of a limb in the slot of its register, `0x200` bytes to a slot (R65). -/
theorem State.windowAt_wordAt_limb {s : State} {off k : Nat} {v : WideReg} (hk : k < s.build.limbs)
    (hoff : off = 0x200 * slotOf v + 4 * k) : s.windowAt (wordAt off) = .limb v k := by
  have hmax := s.build.limbs_le_max
  have hslot := slotOf_range v
  have hwa := toNat_wordAt (off := off) (by omega)
  exact State.windowAt_eq_limb_iff.2 ⟨by omega, hk⟩

/-- Settles O22: each offset of a register is the place of its limb, and no register owns the reserved slots. -/
theorem addressMapOfTheWindow : Obligations.AddressMapOfTheWindow := by
  intro s
  refine ⟨rfl, rfl, rfl, rfl, rfl, rfl, fun off _ h => State.windowAt_wordAt_reserved (by omega) (by omega),
    fun k hk => ⟨fun i => ?_, ?_, ?_, ?_, fun j => ⟨?_, ?_⟩⟩⟩
  · exact State.windowAt_wordAt_limb hk (by rw [slotOf]; omega)
  · exact State.windowAt_wordAt_limb hk rfl
  · exact State.windowAt_wordAt_limb hk rfl
  · exact State.windowAt_wordAt_limb hk rfl
  · exact State.windowAt_wordAt_limb hk (by rw [slotOf]; omega)
  · exact State.windowAt_wordAt_limb hk (by rw [slotOf]; omega)

/-! What a read and a write of each kind of word do (R63, R64). -/

section
variable {s : State} {wa : WordAddr}

theorem busRead_limb {v : WideReg} {k : Nat} (h : s.windowAt wa = .limb v k) :
    s.busRead wa = readLimb (s.wide v) k := by simp [State.busRead, h]
theorem busRead_reserved (h : s.windowAt wa = .reserved) : s.busRead wa = 0 := by simp [State.busRead, h]

theorem busWrite_id (h : s.windowAt wa = .id) (d : Word) : s.busWrite wa d = s := by simp [State.busWrite, h]
theorem busWrite_config (h : s.windowAt wa = .config) (d : Word) : s.busWrite wa d = s := by
  simp [State.busWrite, h]
theorem busWrite_status (h : s.windowAt wa = .status) (d : Word) : s.busWrite wa d = s.writeStatus d := by
  simp [State.busWrite, h]
theorem busWrite_limb {v : WideReg} {k : Nat} (h : s.windowAt wa = .limb v k) (d : Word) :
    s.busWrite wa d = s.guarded (s.writeWide v k d) := by simp [State.busWrite, h]
theorem busWrite_reserved (h : s.windowAt wa = .reserved) (d : Word) : s.busWrite wa d = s := by
  simp [State.busWrite, h]

end

/-- Settles O23: a reserved word reads 0 and takes no write, whatever `BUSY` is. -/
theorem reservedOffsetsReadZeroAndIgnoreWrites : Obligations.ReservedOffsetsReadZeroAndIgnoreWrites := by
  intro s off _ hoff h
  have hw := State.windowAt_wordAt_reserved hoff h
  exact ⟨busRead_reserved hw, busWrite_reserved hw⟩

/-- Settles O30: by the kind of the word, the last three under the busy rule. -/
theorem busyWritesAreDroppedWithOverrun : Obligations.BusyWritesAreDroppedWithOverrun := by
  intro s wa d hb
  refine ⟨fun h => busWrite_ctrl h d, fun h => busWrite_status h d, ?_, ?_⟩
  · rintro (h | h | h)
    · exact busWrite_reserved h d
    · exact busWrite_id h d
    · exact busWrite_config h d
  · rintro (h | h | ⟨v, k, h⟩)
    · exact (busWrite_cmd h d).trans (State.guarded_of_busy hb _)
    · exact (busWrite_ptag h d).trans (State.guarded_of_busy hb _)
    · exact (busWrite_limb h d).trans (State.guarded_of_busy hb _)

/-! ## Limbs (R67, R68) -/

theorem readLimb_writeLimb_same {w : Nat} (v : BitVec w) {k : Nat} (d : Word) (hk : 32 * k + 32 ≤ w) :
    readLimb (writeLimb v k d) k = d := by
  refine BitVec.eq_of_getLsbD_eq fun i hi => ?_
  have hin : 32 * k + i < 32 * k + 32 := by omega
  have hw : 32 * k + i < w := by omega
  rw [getLsbD_readLimb, getLsbD_writeLimb, if_pos ⟨Nat.le_add_right _ _, hin⟩]
  simp only [hi, hw, decide_true, Bool.true_and, Nat.add_sub_cancel_left]

theorem readLimb_writeLimb_of_ne {w : Nat} (v : BitVec w) {k k' : Nat} (d : Word) (hne : k' ≠ k) :
    readLimb (writeLimb v k d) k' = readLimb v k' := by
  refine BitVec.eq_of_getLsbD_eq fun i hi => ?_
  have hout : ¬(32 * k ≤ 32 * k' + i ∧ 32 * k' + i < 32 * k + 32) := by omega
  rw [getLsbD_readLimb, getLsbD_readLimb, getLsbD_writeLimb, if_neg hout]

theorem State.wide_writeWide (s : State) (v v' : WideReg) (k : Nat) (d : Word) :
    (s.writeWide v k d).wide v' = if v' = v then writeLimb (s.wide v) k d else s.wide v' :=
  s.wide_setWide v v' _

@[simp] theorem State.statusWord_writeWide (s : State) (v : WideReg) (k : Nat) (d : Word) :
    (s.writeWide v k d).statusWord = s.statusWord := rfl

/-- The other limbs of the window, of the same register or of another, are as they were (R68). -/
theorem State.readLimb_writeWide_of_ne (s : State) {v v' : WideReg} {k k' : Nat} (d : Word)
    (hne : WindowReg.limb v' k' ≠ .limb v k) :
    readLimb ((s.writeWide v k d).wide v') k' = readLimb (s.wide v') k' := by
  rw [s.wide_writeWide]
  split
  · subst v'
    exact readLimb_writeLimb_of_ne _ d fun hk => hne (by rw [hk])
  · rfl

/-- A write of a limb changes the window at the words of that limb only. -/
theorem State.busRead_writeWide_of_ne {s : State} {wa : WordAddr} {v : WideReg} {k : Nat} (d : Word)
    (hne : s.windowAt wa ≠ .limb v k) : (s.writeWide v k d).busRead wa = s.busRead wa := by
  by_cases hst : s.windowAt wa = .status
  · have hst' : (s.writeWide v k d).windowAt wa = .status := hst
    rw [busRead_status hst, busRead_status hst', s.statusWord_writeWide]
  · have hkeep : KeepsWindow s (s.writeWide v k d) (· = .limb v k) :=
      keepsWindow_of rfl rfl rfl (fun _ => rfl) fun v' k' h => s.readLimb_writeWide_of_ne d h
    exact hkeep wa hst hne

/-- Settles O29: a limb has one word, and the bits of a limb are its own. -/
theorem limbWriteReachesItsLimbOnly : Obligations.LimbWriteReachesItsLimbOnly := by
  intro s wa v k d hw
  refine ⟨busRead_limb hw, fun hb => ?_⟩
  obtain ⟨hwa, hk⟩ := State.windowAt_eq_limb_iff.1 hw
  have hread : readLimb ((s.writeWide v k d).wide v) k = d := by
    rw [s.wide_writeWide, if_pos rfl]
    exact readLimb_writeLimb_same (s.wide v) d (by rw [Config.Build.W]; omega)
  rw [busWrite_limb hw, State.guarded_of_idle hb]
  refine ⟨(busRead_limb (s := s.writeWide v k d) hw).trans hread, hread, fun k' _ hne => ?_, fun v' hne => ?_,
    fun wa' hne => ?_⟩
  · exact s.readLimb_writeWide_of_ne d (by simpa using hne)
  · exact (s.int_setWide v v' _).trans (if_neg hne)
  · refine State.busRead_writeWide_of_ne d fun hw' => hne (BitVec.eq_of_toNat_eq ?_)
    exact (State.windowAt_eq_limb_iff.1 hw').1.trans hwa.symm

/-! ## Host accesses between the accept and its Complete (R81 to R83) -/

/-- The fields a host access can write while the engine is busy, together with the model's schedule (R31, R32, R35,
R61). -/
structure HostFields where
  ie : Bool
  done : Bool
  ovr : Bool
  schedule : List Event
  readData : Word

def State.hostFields (s : State) : HostFields := ⟨s.ie, s.done, s.ovr, s.schedule, s.readData⟩

/-- The state with other host fields, and the engine's registers, tags, `T`, `ERR`, `BUSY` and `CMD` as they were. -/
def State.withHost (s : State) (f : HostFields) : State :=
  { s with ie := f.ie, done := f.done, ovr := f.ovr, schedule := f.schedule, readData := f.readData }

/-- The host fields after a Complete. -/
def HostFields.completed (f : HostFields) : HostFields := { f with done := true }

section
variable (s : State) (f : HostFields)

@[simp] theorem State.withHost_hostFields : s.withHost s.hostFields = s := rfl

@[simp] theorem State.x_withHost (i : RIdx) : (s.withHost f).x i = s.x i := rfl
@[simp] theorem State.curveP_withHost : (s.withHost f).curveP = s.curveP := rfl
theorem State.int_withHost (v : WideReg) : (s.withHost f).int v = s.int v := by cases v <;> rfl

@[simp] theorem State.setX_withHost (rd : RIdx) (n : Int) : (s.withHost f).setX rd n = (s.setX rd n).withHost f := rfl
@[simp] theorem State.succeed_withHost : (s.withHost f).succeed = s.succeed.withHost f.completed := rfl
@[simp] theorem State.raise_withHost (e : Error) : (s.withHost f).raise e = (s.raise e).withHost f.completed := rfl

end

theorem State.ecChecked_withHost (s s' : State) (f : HostFields) (qs : List Point) {t : State}
    (h : s.ecChecked qs s' = .next t) :
    (s.withHost f).ecChecked qs (s'.withHost f) = .next (t.withHost f.completed) := by
  rcases State.ecChecked_cases h with ⟨hc, rfl⟩ | ⟨hc, rfl⟩ <;> simp [State.ecChecked, hc]

/-- A command does not see the host fields, and writes none of them but `DONE`. -/
theorem exec_withHost {i : Instr} {s t : State} (f : HostFields) (h : exec i s = .next t) :
    exec i (s.withHost f) = .next (t.withHost f.completed) := by
  cases i with
  | nop => cases h; rfl
  | modred rd rs1 rs3 =>
    rcases execModred_cases h with ⟨hm, rfl⟩ | ⟨hm, rfl⟩
    · exact if_pos hm
    · exact if_neg (Int.not_lt.2 hm)
  | modinv rd rs1 rs3 =>
    rcases execModinv_cases h with ⟨hm, rfl⟩ | ⟨hm, hv, rfl⟩ | ⟨hm, v, hv, rfl⟩
    · exact if_pos hm
    · simp [exec, execModinv, hv, Int.not_lt.2 hm]
    · simp [exec, execModinv, hv, Int.not_lt.2 hm]
  | modpow rd rs1 rs2 rs3 =>
    rcases execModpow_cases h with ⟨hm, rfl⟩ | ⟨hm, he, rfl⟩
    · exact if_pos hm
    · exact if_neg (not_or.2 ⟨Int.not_lt.2 hm, Int.not_lt.2 he⟩)
  | mrround rs1 rs2 =>
    rcases execMrround_cases h with ⟨hm, rfl⟩ | ⟨hm, rfl⟩
    · exact if_pos hm
    · exact if_neg hm
  | isprime rs1 rounds => cases h; rfl
  | econcurve ps1 => exact State.ecChecked_withHost s _ f _ h
  | ecneg pd ps1 => exact State.ecChecked_withHost s _ f _ h
  | ecdbl pd ps1 => exact State.ecChecked_withHost s _ f _ h
  | ecadd pd ps1 ps2 => exact State.ecChecked_withHost s _ f _ h
  | ecsmul pd rk ps1 => exact State.ecChecked_withHost s _ f _ h

/-- A write to a busy engine that is no soft reset reaches the host fields only (R81). -/
theorem State.busWrite_of_busy {s : State} {wa : WordAddr} {d : Word} (hb : s.busy = true)
    (h : (Event.write wa d).isHostAccess = true) :
    ∃ f, s.busWrite wa d = s.withHost f ∧ f.schedule = s.schedule := by
  obtain ⟨hctrl, hstatus, hignored, hdropped⟩ := busyWritesAreDroppedWithOverrun s wa d hb
  cases hw : s.windowAt wa with
  | ctrl =>
    obtain rfl := windowAt_ctrl hw
    have hd : d.getLsbD 1 = false := by simpa [Event.isHostAccess, wordAt] using h
    rw [hctrl hw, State.writeCtrl, hd]
    exact ⟨(s.setIe (d.getLsbD 0)).hostFields, rfl, rfl⟩
  | status =>
    rw [hstatus hw]
    exact ⟨(s.writeStatus d).hostFields, rfl, rfl⟩
  | id | config | reserved =>
    rw [hignored (by simp [hw])]
    exact ⟨s.hostFields, rfl, rfl⟩
  | cmd | ptag | limb v k =>
    rw [hdropped (by simp [hw])]
    exact ⟨s.overrun.hostFields, rfl, rfl⟩

/-- A host access to a busy engine reaches the host fields only. -/
theorem step_of_hostAccess {s : State} {e : Event} {rest : List Event} (hb : s.busy = true)
    (hs : s.schedule = e :: rest) (he : e.isHostAccess = true) :
    ∃ f, step s = .next (s.withHost f) ∧ f.schedule = rest := by
  rw [step_of_schedule_cons hs]
  cases e with
  | read wa => exact ⟨((s.setSchedule rest).answerRead ((s.setSchedule rest).busRead wa)).hostFields, rfl, rfl⟩
  | write wa d =>
    obtain ⟨f, hf, hrest⟩ := State.busWrite_of_busy (s := s.setSchedule rest) hb he
    exact ⟨f, by rw [performEvent, hf]; rfl, hrest⟩
  | hardReset | engine | narrow => cases he

theorem run_succ_of_step {M : Host.Core} {s t : M.State} (h : M.step s = .next t) (k : Nat) :
    M.run (k + 1) s = M.run k t := by
  simp [Host.Core.run, h]

/-- A run of host accesses to a busy engine reaches the host fields only. -/
theorem run_of_hostAccesses {s : State} {es tail : List Event} (hb : s.busy = true) (hs : s.schedule = es ++ tail)
    (hes : ∀ e ∈ es, e.isHostAccess = true) (k : Nat) :
    ∃ f, Host.Core.run core (es.length + k) s = Host.Core.run core k (s.withHost f) ∧ f.schedule = tail := by
  induction es generalizing s with
  | nil => exact ⟨s.hostFields, by simp, hs⟩
  | cons e es ih =>
    obtain ⟨he, hes⟩ := List.forall_mem_cons.1 hes
    obtain ⟨f, hstep, hf⟩ := step_of_hostAccess hb hs he
    obtain ⟨g, hrun, hg⟩ := ih (s := s.withHost f) hb hf hes
    refine ⟨g, ?_, hg⟩
    rw [List.length_cons, Nat.add_right_comm]
    exact (run_succ_of_step (M := core) hstep _).trans hrun

/-- Settles O32: the accesses reach the host fields only, which the command does not see. -/
theorem hostAccessesWhileBusyCannotChangeTheResult : Obligations.HostAccessesWhileBusyCannotChangeTheResult := by
  intro s es rest i hb hd hs hes
  obtain ⟨u, hu⟩ := exec_exists_next i s
  obtain ⟨f, hrun, hf⟩ := run_of_hostAccesses hb hs hes 1
  have hstep : step (s.withHost f) = .next (u.withHost { f with schedule := rest, done := true }) :=
    calc step (s.withHost f) = engineTurn (s.withHost { f with schedule := rest }) :=
          step_of_schedule_cons (s := s.withHost f) (e := .engine) hf
      _ = exec i (s.withHost { f with schedule := rest }) := engineTurn_of_command hb hd
      _ = .next (u.withHost { f with schedule := rest, done := true }) := exec_withHost { f with schedule := rest } hu
  have hframe : CompletionFrame s u := everyCommandKeepsCurveAndControl s u i hu
  exact ⟨_, u, hrun.trans (run_succ_of_step (M := core) hstep 0), hu, u.int_withHost _, fun _ => rfl, rfl, rfl, rfl,
    hframe.cmd, hframe.busy, rfl, rfl⟩

end Sys2Proof.Machine
end

section
/-! PROOFS. The statements of spec/30_encoding.md: decoding and encoding (R90 to R100, R103), the reserved words (R98,
R99), the host's macros (R102). -/

namespace Sys2Proof.Machine

/-! ## Decoding the word of a command (R98, R100, R103) -/

/-- Settles O6: the word matches the row of its command and no other row, and its fields are the operands. -/
theorem decodeOfEncodeIsTheCommand : Obligations.DecodeOfEncodeIsTheCommand :=
  fun _ => decode_encode

/-- Settles O8: a word carries the opcode of each row it matches, and the opcodes differ. -/
theorem noWordMatchesTwoRows : Obligations.NoWordMatchesTwoRows :=
  fun _ _ _ => eq_of_matchesWord

/-! ## What the decoder answers (R98, R99) -/

/-- A word is a command exactly when it matches a row, whose fields it then carries (R98). -/
theorem decode_eq_command_iff {c : Word} {i : Instr} :
    decode c = .command i ↔ ∃ o : Op, o.matchesWord c = true ∧ o.operands c = i := by
  constructor
  · intro h
    unfold decode at h
    split at h
    · rename_i o ho
      exact ⟨o, List.find?_some (p := (Op.matchesWord · c)) ho, by simpa using h⟩
    · cases h
  · rintro ⟨o, ho, rfl⟩
    exact decode_of_matchesWord ho

/-- A word is illegal exactly when it matches no row (R99). -/
theorem decode_eq_illegalCommand_iff {c : Word} :
    decode c = .illegalCommand ↔ ∀ o : Op, ¬o.matchesWord c = true := by
  constructor
  · intro h o ho
    rw [decode_of_matchesWord ho] at h
    cases h
  · intro h
    cases hd : decode c with
    | illegalCommand => rfl
    | command i =>
      obtain ⟨o, ho, -⟩ := decode_eq_command_iff.1 hd
      exact absurd ho (h o)

/-- A field of a word, at its place, is the word under the mask of the field. -/
theorem place_extractLsb' (c : Word) (n lo : Nat) :
    place (c.extractLsb' lo n) lo = c &&& (BitVec.allOnes n).setWidth 32 <<< lo := by
  refine BitVec.eq_of_getLsbD_eq fun i hi => ?_
  by_cases hlo : i < lo
  · simp [place, hlo]
  · have hsum : lo + (i - lo) = i := by omega
    simp [place, hlo, hi, hsum, Bool.and_comm]

/-- The mask of a row covers the whole opcode field. -/
theorem mask_and_opcodeField (o : Op) : o.mask &&& 0xFF = 0xFF := by cases o <;> rfl

/-- Outside the opcode field the match of a row is 0. -/
theorem pattern_and_not_opcodeField (o : Op) : o.pattern &&& 0xFFFFFF00 = 0 := by cases o <;> rfl

theorem place_opcode (o : Op) : place o.opcode 0 = o.pattern := by cases o <;> rfl

/-- A word matches a row exactly when it has the row's opcode and every bit above it that the mask covers is 0 (R98). -/
theorem matchesWord_iff {o : Op} {c : Word} :
    o.matchesWord c = true ↔ o.opcode = c.extractLsb' 0 8 ∧ c &&& (o.mask &&& 0xFFFFFF00) = 0 := by
  constructor
  · intro h
    have hmatch : c &&& o.mask = o.pattern := eq_of_beq h
    refine ⟨(extractLsb'_eq_opcode_of_matchesWord h).symm, ?_⟩
    rw [← BitVec.and_assoc, hmatch, pattern_and_not_opcodeField o]
  · rintro ⟨hop, hhigh⟩
    have hlow : c &&& (o.mask &&& 0xFF) = o.pattern := by
      rw [mask_and_opcodeField o, ← place_opcode o, hop, place_extractLsb']
      rfl
    refine beq_iff_eq.2 ?_
    calc c &&& o.mask = c &&& (o.mask &&& 0xFF) ||| c &&& (o.mask &&& 0xFFFFFF00) := by
          rw [← BitVec.and_or_distrib_left, ← BitVec.and_or_distrib_left]
          exact congrArg (c &&& ·) (BitVec.and_allOnes (x := o.mask)).symm
      _ = o.pattern := by rw [hlow, hhigh]; exact BitVec.or_zero

/-- Settles O9: no row has the word's opcode, or the one that has it covers a bit of the word that is 1. -/
theorem reservedWordsAreIllegal : Obligations.ReservedWordsAreIllegal := by
  intro c
  rw [decode_eq_illegalCommand_iff]
  constructor
  · intro h
    by_cases hop : ∃ o : Op, o.opcode = c.extractLsb' 0 8
    · obtain ⟨o, hop⟩ := hop
      exact .inr ⟨o, op_mem_all o, hop, fun hhigh => h o (matchesWord_iff.2 ⟨hop, hhigh⟩)⟩
    · exact .inl fun o _ ho => hop ⟨o, ho⟩
  · rintro (hnone | ⟨o, -, hop, hhigh⟩) o' ho'
    · exact hnone o' (op_mem_all o') (matchesWord_iff.1 ho').1
    · obtain ⟨hop', hhigh'⟩ := matchesWord_iff.1 ho'
      obtain rfl := opcode_injective (hop.trans hop'.symm)
      exact hhigh hhigh'

/-- Settles O5: four of the words are those of their commands; the last two have a covered bit set (R99). -/
theorem workedWordsDecode : Obligations.WorkedWordsDecode :=
  ⟨decode_encode (i := .nop) rfl, decode_encode (i := .modpow 3 0 1 2) rfl,
    decode_encode (i := .isprime 5 65535) rfl, decode_encode (i := .ecsmul 3 7 3) rfl,
    (reservedWordsAreIllegal _).2 (.inr ⟨.modred, op_mem_all _, rfl, by decide⟩),
    (reservedWordsAreIllegal _).2 (.inr ⟨.isprime, op_mem_all _, rfl, by decide⟩)⟩

/-! ## Encoding the command of a word (R95, R100) -/

/-- Every command the decoder can answer has an encoding: `imm16` carries no more than `maxRounds` (R96). -/
theorem wellFormed_operands (o : Op) (c : Word) : (o.operands c).wellFormed = true := by
  cases o with
  | isprime => exact decide_eq_true (Nat.le_of_lt_succ (c.extractLsb' 16 16).isLt)
  | _ => rfl

theorem place_rBits_fieldR (c : Word) (lo : Nat) : place (rBits (fieldR c lo)) lo = c &&& 7 <<< lo :=
  place_extractLsb' c 3 lo

theorem place_pBits_fieldP (c : Word) (lo : Nat) : place (pBits (fieldP c lo)) lo = c &&& 3 <<< lo :=
  place_extractLsb' c 2 lo

theorem place_fieldRounds (c : Word) : place (BitVec.ofNat 16 (fieldRounds c)) 16 = c &&& 0xFFFF0000 := by
  rw [fieldRounds, BitVec.ofNat_toNat, BitVec.setWidth_eq]
  exact place_extractLsb' c 16 16

@[simp] theorem place_rBits_zero (lo : Nat) : place (rBits 0) lo = 0 := by simp [place, rBits]

@[simp] theorem place_pBits_zero (lo : Nat) : place (pBits 0) lo = 0 := by simp [place, pBits]

/-- The word of the command of a row with the fields of a word `c`: the bits of `c` that the mask leaves free, and the
match of the row (R95, R98). Each field of a format is `c` under the field's mask, and the masks of the fields a row
uses add up to what its own mask leaves free. -/
theorem encode_operands (o : Op) (c : Word) : encode (o.operands c) = c &&& ~~~o.mask ||| o.pattern := by
  cases o <;>
    simp [Op.operands, encode, formatN, formatM, formatI, formatE, place_rBits_fieldR, place_pBits_fieldP,
      place_fieldRounds, place_opcode, ← BitVec.and_or_distrib_left, Op.mask]

theorem encode_operands_of_matchesWord {o : Op} {c : Word} (h : o.matchesWord c = true) :
    encode (o.operands c) = c := by
  have hmatch : c &&& o.mask = o.pattern := eq_of_beq h
  rw [encode_operands, ← hmatch, ← BitVec.and_or_distrib_left, BitVec.or_comm, BitVec.or_not_self, BitVec.and_allOnes]

/-- Settles O7: the fields of a row are the bits its mask leaves free, and the other bits are the match. -/
theorem encodeOfDecodeIsTheWord : Obligations.EncodeOfDecodeIsTheWord := by
  intro c i h
  obtain ⟨o, ho, rfl⟩ := decode_eq_command_iff.1 h
  exact ⟨wellFormed_operands o c, encode_operands_of_matchesWord ho⟩

/-! ## `LOAD` and `READ` (R102, R67, R68) -/

/-- The bits of a register after the limbs below `n` were written from `x`: those of `x` in these limbs, the old ones
above. -/
theorem getLsbD_foldl_writeLimb {w : Nat} (x v : BitVec w) (n i : Nat) :
    ((List.range n).foldl (fun acc k => writeLimb acc k (readLimb x k)) v).getLsbD i =
      if i < 32 * n then x.getLsbD i else v.getLsbD i := by
  induction n with
  | zero => simp
  | succ n ih =>
    rw [List.range_succ, List.foldl_concat, getLsbD_writeLimb, ih]
    by_cases hin : 32 * n ≤ i ∧ i < 32 * n + 32
    · have hx : i - 32 * n < 32 ∧ 32 * n + (i - 32 * n) = i ∧ i < 32 * (n + 1) := by omega
      obtain ⟨hbit, hsum, hlt⟩ := hx
      rw [if_pos hin, if_pos hlt, getLsbD_readLimb, hsum, decide_eq_true hbit, Bool.true_and]
      by_cases hw : i < w
      · rw [decide_eq_true hw, Bool.true_and]
      · rw [BitVec.getLsbD_of_ge x i (by omega), Bool.and_false]
    · have hlt : i < 32 * n ↔ i < 32 * (n + 1) := by omega
      simp only [if_neg hin, hlt]

/-- Writing every limb of `x` into a register gives `x`. -/
theorem foldl_writeLimb_readLimb {n : Nat} (x v : BitVec (32 * n)) :
    (List.range n).foldl (fun acc k => writeLimb acc k (readLimb x k)) v = x := by
  refine BitVec.eq_of_getLsbD_eq fun i hi => ?_
  rw [getLsbD_foldl_writeLimb, if_pos hi]

theorem State.windowAt_limbAddr {s : State} (v : WideReg) {k : Nat} (hk : k < s.build.limbs) :
    s.windowAt (limbAddr v k) = .limb v k := by
  have hmax := s.build.limbs_le_max
  have hslot := slotOf_range v
  refine State.windowAt_eq_limb_iff.2 ⟨?_, hk⟩
  rw [limbAddr, BitVec.toNat_ofNat, Nat.mod_eq_of_lt (by omega)]

/-- `READ` assembles the register from its limbs (R67). -/
theorem State.readWide_eq (s : State) (v : WideReg) : s.readWide v = s.int v := by
  have hread : ∀ k ∈ List.range s.build.limbs, ∀ acc : BitVec s.build.W,
      writeLimb acc k (s.busRead (limbAddr v k)) = writeLimb acc k (readLimb (s.wide v) k) := fun k hk acc => by
    rw [busRead_limb (State.windowAt_limbAddr v (List.mem_range.1 hk))]
  rw [State.readWide, List.foldl_ext _ _ _ fun acc k hk => hread k hk acc]
  exact congrArg sint (foldl_writeLimb_readLimb (s.wide v) 0)

/-- A write of a limb while the engine is idle, to a register just written. -/
theorem State.busWrite_limbAddr_setWide {s : State} (hb : s.busy = false) (v : WideReg) (x : BitVec s.build.W)
    {k : Nat} (hk : k < s.build.limbs) (d : Word) :
    (s.setWide v x).busWrite (limbAddr v k) d = s.setWide v (writeLimb x k d) := by
  have hw : (s.setWide v x).windowAt (limbAddr v k) = .limb v k := State.windowAt_limbAddr v hk
  have hidle : (s.setWide v x).busy = false := hb
  rw [busWrite_limb hw, State.guarded_of_idle hidle]
  exact s.writeWide_setWide v x k d

/-- While the engine is idle, writing the limbs below `n` of a register through the window writes them into the
register and does nothing else. -/
theorem State.foldl_busWrite_limbAddr {s : State} (hb : s.busy = false) (v : WideReg) (x : BitVec s.build.W) {n : Nat}
    (hn : n ≤ s.build.limbs) :
    (List.range n).foldl (fun s' k => s'.busWrite (limbAddr v k) (readLimb x k)) s =
      s.setWide v ((List.range n).foldl (fun acc k => writeLimb acc k (readLimb x k)) (s.wide v)) := by
  induction n with
  | zero => exact (s.setWide_wide v).symm
  | succ n ih =>
    rw [List.range_succ, List.foldl_concat, List.foldl_concat, ih (by omega)]
    exact State.busWrite_limbAddr_setWide hb v _ (by omega) _

/-- `LOAD` to an idle engine is the register write (R68). -/
theorem State.loadWide_eq {s : State} (hb : s.busy = false) (v : WideReg) (n : Int) :
    s.loadWide v n = s.setInt v n := by
  rw [State.loadWide, State.foldl_busWrite_limbAddr hb v _ le_rfl]
  exact congrArg (s.setWide v) (foldl_writeLimb_readLimb (enc s.build.W n) (s.wide v))

/-- Settles O59: the limbs of a register make up the register. -/
theorem loadAndReadMacros : Obligations.LoadAndReadMacros := by
  intro s v n
  refine ⟨s.readWide_eq v, fun hb hn => ?_⟩
  have hW : 0 < s.build.W := Nat.lt_of_lt_of_le (by decide : 0 < 64) (Config.Build.W_pos s.build)
  have hint : (s.setInt v n).int v = n := by rw [State.int_setInt, if_pos rfl, sint_enc hW hn]
  rw [State.loadWide_eq hb, State.readWide_eq]
  exact ⟨rfl, hint, hint⟩

/-! ## `LOADP` and `READP` (R102, R26, R38) -/

theorem State.busRead_ptagAddr (s : State) : s.busRead ptagAddr = s.ptagWord :=
  busRead_ptag s.windowAt_wordAt_ptag

theorem State.busWrite_ptagAddr {s : State} (hb : s.busy = false) (d : Word) : s.busWrite ptagAddr d = s.writePtag d :=
  (busWrite_ptag s.windowAt_wordAt_ptag d).trans (State.guarded_of_idle hb _)

/-- The word of `PTAG` written back with one bit set sets that tag alone (R38). -/
theorem State.writePtag_or (s : State) (j : PIdx) : s.writePtag (s.ptagWord ||| 1#32 <<< j.val) = s.setTag j true := by
  have key : ∀ (p : BitVec 4) (j : PIdx), (place p 0 ||| 1#32 <<< j.val).extractLsb' 0 4 =
      (p &&& ~~~(1#4 <<< j.val) ||| (BitVec.ofBool true).setWidth 4 <<< j.val) := by decide
  rw [State.writePtag, State.ptagWord, key]
  rfl

/-- The word of `PTAG` written back with one bit cleared clears that tag alone (R38). -/
theorem State.writePtag_and_not (s : State) (j : PIdx) :
    s.writePtag (s.ptagWord &&& ~~~(1#32 <<< j.val)) = s.setTag j false := by
  have key : ∀ (p : BitVec 4) (j : PIdx), (place p 0 &&& ~~~(1#32 <<< j.val)).extractLsb' 0 4 =
      (p &&& ~~~(1#4 <<< j.val) ||| (BitVec.ofBool false).setWidth 4 <<< j.val) := by decide
  rw [State.writePtag, State.ptagWord, key]
  rfl

@[simp] theorem State.int_setTag (s : State) (j : PIdx) (b : Bool) (v : WideReg) : (s.setTag j b).int v = s.int v := by
  cases v <;> rfl

theorem State.readPoint_eq (s : State) (j : PIdx) : s.readPoint j = s.pt j := by
  simp only [State.readPoint, State.pt, s.busRead_ptagAddr, s.ptagWord_getLsbD, s.readWide_eq]

/-- `LOADP` of `Inf` to an idle engine sets the tag and leaves the coordinates. -/
theorem State.loadPoint_inf {s : State} (hb : s.busy = false) (j : PIdx) : s.loadPoint j .inf = s.setTag j true := by
  rw [State.loadPoint, s.busRead_ptagAddr, State.busWrite_ptagAddr hb, s.writePtag_or]

/-- `LOADP` of an affine point to an idle engine is the point write of R26. -/
theorem State.loadPoint_aff {s : State} (hb : s.busy = false) (j : PIdx) (x y : Int) :
    s.loadPoint j (.aff x y) = s.setPt j (.aff x y) := by
  have hx : (s.setInt (.px j) x).busy = false := hb
  have hxy : ((s.setInt (.px j) x).setInt (.py j) y).busy = false := hb
  simp only [State.loadPoint, State.loadWide_eq hb, State.loadWide_eq hx, State.busRead_ptagAddr,
    State.busWrite_ptagAddr hxy, State.writePtag_and_not]
  rfl

/-- A write of a tag keeps the other point registers. -/
theorem keepsPoint_setTag (s : State) {j k : PIdx} (b : Bool) (hk : k ≠ j) : KeepsPoint s (s.setTag j b) k :=
  ⟨(s.tag_setTag j k b).trans (if_neg hk), s.int_setTag j b _, s.int_setTag j b _⟩

/-- A point write keeps the other point registers (R26). -/
theorem keepsPoint_setPt (s : State) {j k : PIdx} (q : Point) (hk : k ≠ j) : KeepsPoint s (s.setPt j q) k := by
  simp [KeepsPoint, hk]

/-- Settles O60: `Inf` is a write of the tag, an affine point a write of the point register. -/
theorem pointMacros : Obligations.PointMacros := by
  intro s j q
  refine ⟨s.readPoint_eq j, fun hb hq => ?_⟩
  rw [State.readPoint_eq]
  cases q with
  | inf =>
    have hpt : (s.setTag j true).pt j = .inf := by simp [State.pt]
    rw [State.loadPoint_inf hb]
    exact ⟨hpt, hpt, fun _ hk => keepsPoint_setTag s true hk, fun _ => s.int_setTag j true _⟩
  | aff x y =>
    have hpt : (s.setPt j (.aff x y)).pt j = .aff x y := by rw [s.pt_setPt j j _ hq, if_pos rfl]
    rw [State.loadPoint_aff hb]
    exact ⟨hpt, hpt, fun _ hk => keepsPoint_setPt s _ hk, fun i => by simp [State.x]⟩

end Sys2Proof.Machine
end

section
/-! PROOFS. The statements of spec/40_modular.md: MODRED (R124), MODINV (R128), MODPOW (R133). -/

namespace Sys2Proof.Machine

/-! ## The frame of an end that writes the status, or one integer register -/

theorem State.wide_finish (s : State) (c : BitVec 4) (v : WideReg) : (s.finish c).wide v = s.wide v := by
  cases v <;> rfl

theorem State.wide_setX_of_ne (s : State) {i : RIdx} {v : WideReg} (n : Int) (hv : v ≠ .r i) :
    (s.setX i n).wide v = s.wide v :=
  (s.wide_setWide (.r i) v _).trans (if_neg hv)

theorem completionFrame_finish (s : State) (c : BitVec 4) : CompletionFrame s (s.finish c) := by
  constructor <;> simp

theorem completionFrame_succeed_setX (s : State) (rd : RIdx) (n : Int) : CompletionFrame s (s.setX rd n).succeed := by
  constructor <;> simp

/-- The end of a Complete writes nothing but the status (R244). -/
theorem writesOnlyStatus_finish (s : State) (c : BitVec 4) : WritesOnlyStatus s (s.finish c) := by
  have hwin : KeepsWindow s (s.finish c) fun _ => False :=
    keepsWindow_of rfl rfl rfl (fun _ => rfl) fun v k _ => congrArg (readLimb · k) (s.wide_finish c v)
  exact ⟨completionFrame_finish s c, fun _ => s.int_finish c _,
    fun j => ⟨s.tag_finish c j, s.int_finish c _, s.int_finish c _⟩, rfl, rfl, hwin⟩

/-- The end with a result in an integer register writes that register and the status, whatever the result. -/
theorem writesOnlyInteger_succeed_setX (s : State) (rd : RIdx) (n : Int) :
    WritesOnlyInteger rd s (s.setX rd n).succeed := by
  have hwide {v : WideReg} (hv : v ≠ .r rd) : (s.setX rd n).succeed.wide v = s.wide v :=
    ((s.setX rd n).wide_finish 0 v).trans (s.wide_setX_of_ne n hv)
  have hwin : KeepsWindow s (s.setX rd n).succeed fun w => ∃ k, w = .limb (.r rd) k :=
    keepsWindow_of rfl rfl rfl (fun _ => rfl) fun v k hv =>
      congrArg (readLimb · k) (hwide fun h => hv ⟨k, by rw [h]⟩)
  exact ⟨completionFrame_succeed_setX s rd n, fun i hi => congrArg sint (hwide (by simpa using hi)),
    fun j => ⟨rfl, congrArg sint (hwide nofun), congrArg sint (hwide nofun)⟩, rfl, rfl, hwin⟩

/-- A result below a modulus that a register holds is what the destination then holds (R21). -/
theorem State.x_succeed_setX_self {s : State} (rd rs3 : RIdx) {n : Int} (h0 : 0 ≤ n) (h1 : n < s.x rs3) :
    (s.setX rd n).succeed.x rd = n := by
  have hm : s.x rs3 < 2 ^ (s.build.W - 1) := s.int_lt_two_pow (.r rs3)
  calc (s.setX rd n).succeed.x rd = (s.setX rd n).x rd := (s.setX rd n).int_succeed (.r rd)
    _ = n := by rw [s.x_setX rd rd (fits_iff.2 (by omega)), if_pos rfl]

/-- A command that ends with a residue in `Rd` ends with code 0, writes `Rd` alone, and leaves the residue there. -/
theorem exists_residue_end {i : Instr} {s : State} {rd : RIdx} (rs3 : RIdx) {n : Int}
    (he : exec i s = .next (s.setX rd n).succeed) (h0 : 0 ≤ n) (h1 : n < s.x rs3) :
    ∃ t, exec i s = .next t ∧ t.err = 0 ∧ WritesOnlyInteger rd s t ∧ t.x rd = n :=
  ⟨_, he, rfl, writesOnlyInteger_succeed_setX s rd n, State.x_succeed_setX_self rd rs3 h0 h1⟩

/-! ## The ends of the three commands on valid operands -/

section
variable {s : State} {rd rs1 rs2 rs3 : RIdx}

theorem exec_modred_of_one_le (hm : 1 ≤ s.x rs3) :
    exec (.modred rd rs1 rs3) s = .next (s.setX rd (s.x rs1 % s.x rs3)).succeed :=
  if_neg hm.not_gt

theorem exec_modinv_of_inv_eq_some (hm : 1 ≤ s.x rs3) {v : Int} (hv : inv (s.x rs1) (s.x rs3) = some v) :
    exec (.modinv rd rs1 rs3) s = .next (s.setX rd v).succeed := by
  change execModinv rd rs1 rs3 s = _
  rw [execModinv, if_neg hm.not_gt, hv]

theorem exec_modinv_of_inv_eq_none (hm : 1 ≤ s.x rs3) (hv : inv (s.x rs1) (s.x rs3) = none) :
    exec (.modinv rd rs1 rs3) s = .next (s.raise .nonInvertibleElement) := by
  change execModinv rd rs1 rs3 s = _
  rw [execModinv, if_neg hm.not_gt, hv]

theorem exec_modpow_of_valid (hm : 1 ≤ s.x rs3) (he : 0 ≤ s.x rs2) :
    exec (.modpow rd rs1 rs2 rs3) s = .next (s.setX rd (s.x rs1 ^ (s.x rs2).toNat % s.x rs3)).succeed := by
  rw [← modpow_eq]
  exact if_neg (not_or.2 ⟨hm.not_gt, he.not_gt⟩)

end

/-- Settles O35: the floor remainder is below the modulus and differs from the source by a multiple of it. -/
theorem modredWritesTheResidue : Obligations.ModredWritesTheResidue := by
  intro s rd rs1 rs3 hm
  have h0 : 0 ≤ s.x rs1 % s.x rs3 := Int.emod_nonneg _ (by omega)
  have h1 : s.x rs1 % s.x rs3 < s.x rs3 := Int.emod_lt_of_pos _ (by omega)
  obtain ⟨t, he, herr, hw, hx⟩ := exists_residue_end rs3 (exec_modred_of_one_le hm) h0 h1
  refine ⟨t, he, herr, hw, ?_⟩
  rw [hx]
  exact ⟨h0, by omega, Int.dvd_self_sub_emod⟩

/-- A number prime to the modulus has an inverse (R13). -/
theorem exists_inv_eq_some {a m : Int} (hm : 1 ≤ m) (hg : Int.gcd a m = 1) : ∃ v, inv a m = some v := by
  have hne : inv a m ≠ none := by simp [inv_eq_none_iff a hm, Int.gcd_emod, hg]
  exact Option.ne_none_iff_exists'.1 hne

/-- Settles O36: `inv` answers exactly the inverses in `[0, m-1]`, so its answer is the only one. -/
theorem modinvWritesTheInverse : Obligations.ModinvWritesTheInverse := by
  intro s rd rs1 rs3 hm hg
  obtain ⟨v, hv⟩ := exists_inv_eq_some hm hg
  obtain ⟨h0, h1, hdvd⟩ := (inv_eq_some_iff _ hm v).1 hv
  have huniq (y : Int) (hy0 : 0 ≤ y) (hy1 : y ≤ s.x rs3 - 1) (hy : s.x rs3 ∣ s.x rs1 * y - 1) : y = v :=
    Option.some_inj.1 (((inv_eq_some_iff _ hm y).2 ⟨hy0, hy1, hy⟩).symm.trans hv)
  obtain ⟨t, he, herr, hw, rfl⟩ := exists_residue_end (rd := rd) rs3 (exec_modinv_of_inv_eq_some hm hv) h0 (by omega)
  exact ⟨t, he, herr, hw, h0, h1, hdvd, huniq⟩

/-- Settles O37: `inv` answers none on a common factor, and an error writes nothing but the status. -/
theorem modinvWithoutInverseReportsCodeOne : Obligations.ModinvWithoutInverseReportsCodeOne := by
  intro s rd rs1 rs3 hm hg
  have hnone : inv (s.x rs1) (s.x rs3) = none := (inv_eq_none_iff _ hm).2 (by rwa [Int.gcd_emod])
  exact ⟨_, exec_modinv_of_inv_eq_none hm hnone, rfl, writesOnlyStatus_finish s _⟩

/-- Settles O38: repeated squaring is the reduced power, which is below the modulus. -/
theorem modpowWritesThePower : Obligations.ModpowWritesThePower := by
  intro s rd rs1 rs2 rs3 hm he
  exact exists_residue_end rs3 (exec_modpow_of_valid hm he) (Int.emod_nonneg _ (by omega))
    (Int.emod_lt_of_pos _ (by omega))

end Sys2Proof.Machine
end

section
/-! PROOFS. The statements of spec/41_primality.md: `split` (R141), one Miller-Rabin round (R142, R143), trial division
(R145), the rounds of ISPRIME and its possible results (R146, R147). -/

namespace Sys2Proof.Machine

/-! ## The split (R141) -/

/-- With a bound above the count of factors 2, the loop takes them all and leaves the odd part. -/
theorem splitLoop_odd_mul_two_pow {d : Nat} (hd : d % 2 = 1) {r fuel : Nat} (hf : r < fuel) (s : Nat) :
    splitLoop fuel (d * 2 ^ r) s = (d, s + r) := by
  induction fuel generalizing r s with
  | zero => omega
  | succ fuel ih =>
    cases r with
    | zero => simp [splitLoop, hd]
    | succ r =>
      have hpow : d * 2 ^ (r + 1) = 2 * (d * 2 ^ r) := by ring
      have heven : d * 2 ^ (r + 1) % 2 = 0 := by omega
      have hhalf : d * 2 ^ (r + 1) / 2 = d * 2 ^ r := by omega
      rw [splitLoop, if_pos heven, hhalf, ih (by omega), Nat.add_right_comm, Nat.add_assoc]

/-- `split` finds every pair of R141, so there is one at most. -/
theorem split_eq {n : Int} {d r : Nat} (h : n - 1 = (d : Int) * 2 ^ r) (hd : d % 2 = 1) : split n = (d, r) := by
  have hn : (n - 1).toNat = d * 2 ^ r := by
    rw [h]
    exact_mod_cast Int.toNat_natCast (d * 2 ^ r)
  have hd0 : 0 < d := by omega
  have hr : r ≤ (d * 2 ^ r).log2 :=
    (Nat.le_log2 (by positivity)).2 (Nat.le_mul_of_pos_left _ hd0)
  rw [split, hn, splitLoop_odd_mul_two_pow hd (Nat.lt_succ_of_le hr), Nat.zero_add]

/-- An odd `n >= 3` has a pair of R141. -/
theorem exists_split {n : Int} (hn : 3 ≤ n) (hodd : n % 2 = 1) :
    ∃ d r : Nat, n - 1 = (d : Int) * 2 ^ r ∧ d % 2 = 1 ∧ 1 ≤ r := by
  obtain ⟨r, d, hd, hm⟩ := Nat.exists_eq_two_pow_mul_odd (n := (n - 1).toNat) (by omega)
  have h : n - 1 = (d : Int) * 2 ^ r := by
    rw [← Int.toNat_of_nonneg (by omega : 0 ≤ n - 1), hm]
    push_cast
    ring
  have hr : r ≠ 0 := by
    rintro rfl
    have := Nat.odd_iff.1 hd
    omega
  exact ⟨d, r, h, Nat.odd_iff.1 hd, Nat.one_le_iff_ne_zero.2 hr⟩

/-- Settles O47: a pair exists, and `split` answers every pair there is. -/
theorem splitIsTheUniquePair : Obligations.SplitIsTheUniquePair := by
  intro n hn hodd
  obtain ⟨d, r, h, hd, hr⟩ := exists_split hn hodd
  rw [split_eq h hd]
  exact ⟨h, hd, hr, fun d' r' h' hd' => Prod.ext_iff.1 ((split_eq h' hd').symm.trans (split_eq h hd))⟩

/-! ## One Miller-Rabin round (R142) -/

/-- The residue of `y` is `c` exactly when `n` divides the difference (R11). -/
theorem emod_eq_iff_dvd_sub {n c : Int} (h0 : 0 ≤ c) (h1 : c < n) (y : Int) : emod y n = c ↔ n ∣ y - c := by
  rw [← Int.modEq_iff_dvd, Int.ModEq, Int.emod_eq_of_lt h0 h1, emod, eq_comm]

/-- The residue of `y` is `n - 1` exactly when `y` is -1 modulo `n`. -/
theorem emod_eq_pred_iff {n : Int} (hn : 1 ≤ n) (y : Int) : emod y n = n - 1 ↔ n ∣ y + 1 := by
  have hsub : y - (n - 1) = y + 1 - n := by ring
  rw [emod_eq_iff_dvd_sub (by omega) (by omega), hsub, dvd_sub_self_right]

/-- Reducing the base does not change whether a power is -1 modulo `n`. -/
theorem dvd_emod_pow_add_one_iff (n y : Int) (e : Nat) : n ∣ emod y n ^ e + 1 ↔ n ∣ y ^ e + 1 :=
  (((Int.mod_modEq y n).pow e).add_right 1).dvd_iff

/-- The squarings hit `n - 1` exactly when one of the powers they run through is -1 modulo `n`. -/
theorem squaringsHit_iff {n : Int} (hn : 1 ≤ n) (k : Nat) (x : Int) :
    squaringsHit n k x = true ↔ ∃ j < k, n ∣ x ^ 2 ^ (j + 1) + 1 := by
  induction k generalizing x with
  | zero => simp [squaringsHit]
  | succ k ih =>
    have hpow (j : Nat) : n ∣ emod (x * x) n ^ 2 ^ (j + 1) + 1 ↔ n ∣ x ^ 2 ^ (j + 2) + 1 := by
      have hsq : x ^ 2 ^ (j + 2) = (x * x) ^ 2 ^ (j + 1) := by ring
      rw [hsq, dvd_emod_pow_add_one_iff]
    have hone : emod (x * x) n = n - 1 ↔ n ∣ x ^ 2 ^ (0 + 1) + 1 := by
      rw [emod_eq_pred_iff hn, zero_add, pow_one, sq]
    simp only [squaringsHit, Bool.if_true_left, Bool.or_eq_true, decide_eq_true_eq, ih, hpow, hone,
      Nat.exists_lt_succ_left]

/-- A round passes exactly when `a^d` is 1 or one of the powers `a^(d * 2^k)`, `k < r`, is -1 modulo `n` (R142). -/
theorem mrRound_iff {n a : Int} {d r : Nat} (hn : 2 ≤ n) (h : n - 1 = (d : Int) * 2 ^ r) (hd : d % 2 = 1)
    (hr : 1 ≤ r) : mrRound n a = true ↔ n ∣ a ^ d - 1 ∨ ∃ k < r, n ∣ a ^ (d * 2 ^ k) + 1 := by
  obtain ⟨r, rfl⟩ : ∃ r', r = r' + 1 := ⟨r - 1, by omega⟩
  have hone : emod (a ^ d) n = 1 ↔ n ∣ a ^ d - 1 := emod_eq_iff_dvd_sub (by omega) (by omega) _
  have hpred : emod (a ^ d) n = n - 1 ↔ n ∣ a ^ (d * 2 ^ 0) + 1 := by
    rw [emod_eq_pred_iff (by omega), pow_zero, mul_one]
  have hpow (j : Nat) : n ∣ emod (a ^ d) n ^ 2 ^ (j + 1) + 1 ↔ n ∣ a ^ (d * 2 ^ (j + 1)) + 1 := by
    rw [pow_mul, dvd_emod_pow_add_one_iff]
  have hx : modpow a d n = emod (a ^ d) n := modpow_eq a d n
  simp only [mrRound, split_eq h hd, hx, Nat.add_sub_cancel, Bool.if_true_left, Bool.or_eq_true, decide_eq_true_eq,
    squaringsHit_iff (by omega : 1 ≤ n), hone, hpred, hpow, Nat.exists_lt_succ_left, or_assoc]

/-! ## The ends of the two commands -/

theorem completionFrame_flag (s : State) (k : Nat) (c : Bool) :
    CompletionFrame s ((s.setDraws k).setT c).succeed := by
  constructor <;> simp

/-- The end with a result in `T` writes `T`, the count of draws and the status. -/
theorem writesOnlyFlag_flag (s : State) (k : Nat) (c : Bool) : WritesOnlyFlag s ((s.setDraws k).setT c).succeed := by
  have hint (v : WideReg) : ((s.setDraws k).setT c).succeed.int v = s.int v := by simp
  have hwide (v : WideReg) : ((s.setDraws k).setT c).succeed.wide v = s.wide v := by cases v <;> rfl
  have hwin : KeepsWindow s ((s.setDraws k).setT c).succeed fun _ => False :=
    keepsWindow_of rfl rfl rfl (fun _ => rfl) fun v j _ => congrArg (readLimb · j) (hwide v)
  exact ⟨completionFrame_flag s k c, fun _ => hint _, fun _ => ⟨rfl, hint _, hint _⟩, hwin⟩

/-- MRROUND in its domain draws nothing: its end is the one of the flag with the count of draws written back (R143). -/
theorem exec_mrround_of_valid {s : State} {rs1 rs2 : RIdx} (h5 : 5 ≤ s.x rs1) (hodd : s.x rs1 % 2 = 1)
    (h2 : 2 ≤ s.x rs2) (hle : s.x rs2 ≤ s.x rs1 - 2) :
    exec (.mrround rs1 rs2) s = .next ((s.setDraws s.draws).setT (mrRound (s.x rs1) (s.x rs2))).succeed := by
  have hmod : emod (s.x rs1) 2 = 1 := hodd
  exact if_neg (by omega)

/-- ISPRIME of a register whose answer is known. -/
theorem exec_isprime {s : State} {rs1 : RIdx} {rounds k : Nat} {c : Bool}
    (h : isProbablyPrime Config.rng (s.x rs1) rounds s.draws = (c, k)) :
    exec (.isprime rs1 rounds) s = .next ((s.setDraws k).setT c).succeed := by
  change execIsprime rs1 rounds s = _
  rw [execIsprime, h]

/-- Settles O42: by the pair of R141 and what a round tests. -/
theorem mrroundTestsTheWitness : Obligations.MrroundTestsTheWitness := by
  intro s rs1 rs2 h5 hodd h2 hle
  obtain ⟨d, r, h, hd, hr⟩ := exists_split (by omega) hodd
  exact ⟨_, exec_mrround_of_valid h5 hodd h2 hle, rfl, writesOnlyFlag_flag s _ _, rfl, d, r, h, hd, hr,
    mrRound_iff (by omega) h hd hr⟩

/-! ## Trial division (R145) -/

/-- Trial division by a list of which no member divides another says what the members say, whatever their order. -/
theorem trialBy_eq (n : Int) {l : List Int} (hl : IsAntichain (· ∣ ·) {q | q ∈ l}) :
    trialBy n l = if n ∈ l then .prime else if ∃ q ∈ l, q ∣ n then .composite else .undecided := by
  induction l with
  | nil => simp [trialBy]
  | cons q qs ih =>
    have ih := ih (hl.subset fun _ => List.mem_cons_of_mem q)
    by_cases hq : n = q
    · simp [trialBy, hq]
    by_cases hd : q ∣ n
    · have hn : n ∉ q :: qs := fun h => hq (hl.eq List.mem_cons_self h hd).symm
      rw [if_neg hn, if_pos ⟨q, List.mem_cons_self, hd⟩, trialBy, if_neg hq,
        if_pos (show emod n q = 0 from Int.emod_eq_zero_of_dvd hd)]
    · have hmod : emod n q ≠ 0 := fun h => hd (Int.dvd_of_emod_eq_zero h)
      simp [trialBy, hq, hd, hmod, ih]

/-- A member of the small-prime set is divisible by no other (R145). -/
theorem smallPrimes_antichain : IsAntichain (· ∣ ·) {q | q ∈ smallPrimes} := by
  have h : ∀ p ∈ smallPrimes, ∀ q ∈ smallPrimes, p ≠ q → ¬p ∣ q := by decide
  exact fun p hp q hq => h p hp q hq

theorem two_le_of_mem_smallPrimes : ∀ q ∈ smallPrimes, 2 ≤ q := by decide

theorem trial_of_two_le {n : Int} (hn : 2 ≤ n) : trial n = trialBy n smallPrimes := if_neg hn.not_gt

theorem trial_eq_prime_iff {n : Int} : trial n = .prime ↔ n ∈ smallPrimes := by
  by_cases hn : n < 2
  · have : n ∉ smallPrimes := fun h => (two_le_of_mem_smallPrimes n h).not_gt hn
    simp [trial, hn, this]
  · rw [trial_of_two_le (by omega), trialBy_eq n smallPrimes_antichain]
    split_ifs with hm <;> simp [hm]

theorem trial_eq_composite_iff {n : Int} :
    trial n = .composite ↔ n < 2 ∨ (n ∉ smallPrimes ∧ ∃ q ∈ smallPrimes, q ∣ n) := by
  by_cases hn : n < 2
  · simp [trial, hn]
  · rw [trial_of_two_le (by omega), trialBy_eq n smallPrimes_antichain]
    split_ifs with hm hq
    · simp [hn, hm]
    · simpa using .inr ⟨hm, hq⟩
    · simpa [hn, hm] using fun q hq' hd => hq ⟨q, hq', hd⟩

theorem trial_eq_undecided_iff {n : Int} : trial n = .undecided ↔ 2 ≤ n ∧ ∀ q ∈ smallPrimes, ¬q ∣ n := by
  by_cases hn : n < 2
  · simp [trial, hn]
  · rw [trial_of_two_le (by omega), trialBy_eq n smallPrimes_antichain]
    split_ifs with hm hq
    · simpa using fun _ => ⟨n, hm, dvd_rfl⟩
    · simpa using fun _ => hq
    · simpa using ⟨not_lt.1 hn, fun q hq' hd => hq ⟨q, hq', hd⟩⟩

/-- The least prime outside the small-prime set is 31: every smaller number has a factor in the set (R145). -/
theorem exists_smallPrime_dvd : ∀ k : Nat, k < 31 → 2 ≤ k → ∃ q ∈ smallPrimes, q ∣ (k : Int) := by decide

/-- A number trial division leaves undecided is odd and at least 31 (R145). -/
theorem odd_and_31_le_of_undecided {n : Int} (h : trial n = .undecided) : n % 2 = 1 ∧ 31 ≤ n := by
  obtain ⟨hn, hq⟩ := trial_eq_undecided_iff.1 h
  have h2 : ¬(2 : Int) ∣ n := hq 2 (by decide)
  refine ⟨by omega, ?_⟩
  by_contra hlt
  obtain ⟨q, hmem, hdvd⟩ := exists_smallPrime_dvd n.toNat (by omega) (by omega)
  rw [Int.toNat_of_nonneg (by omega)] at hdvd
  exact hq q hmem hdvd

/-- Settles O48: the members of the set decide, and a permutation has the same members. -/
theorem trialDivisionAnswers : Obligations.TrialDivisionAnswers := by
  refine fun n => ⟨trial_eq_prime_iff, trial_eq_composite_iff, odd_and_31_le_of_undecided, fun l hl hn => ?_⟩
  have hmem (q : Int) : q ∈ l ↔ q ∈ smallPrimes := hl.mem_iff
  rw [trial_of_two_le hn, trialBy_eq n smallPrimes_antichain,
    trialBy_eq n (smallPrimes_antichain.subset fun q => (hmem q).1)]
  simp only [hmem]

/-! ## The rounds of ISPRIME (R146, R147) -/

section
variable (rng : Nat → Nat) (n : Int) (rounds k : Nat)

theorem primeRounds_iff :
    (primeRounds rng n rounds k).1 = true ↔
      ∀ i < rounds, mrRound n (draw (rng (k + i)) 2 (n - 2)) = true := by
  induction rounds generalizing k with
  | zero => simp [primeRounds]
  | succ rounds ih =>
    rw [Nat.forall_lt_succ_left, primeRounds]
    cases hround : mrRound n (draw (rng k) 2 (n - 2)) with
    | true => simp [ih, Nat.add_right_comm, Nat.add_assoc]
    | false => simp

/-- The rounds draw at most one word each. -/
theorem primeRounds_draws : k ≤ (primeRounds rng n rounds k).2 ∧ (primeRounds rng n rounds k).2 ≤ k + rounds := by
  induction rounds generalizing k with
  | zero => simp [primeRounds]
  | succ rounds ih =>
    rw [primeRounds]
    split
    · have := ih (k + 1)
      omega
    · exact ⟨Nat.le_succ k, by omega⟩

variable {n}

theorem isProbablyPrime_of_prime (h : trial n = .prime) : isProbablyPrime rng n rounds k = (true, k) := by
  rw [isProbablyPrime, h]

theorem isProbablyPrime_of_composite (h : trial n = .composite) : isProbablyPrime rng n rounds k = (false, k) := by
  rw [isProbablyPrime, h]

theorem isProbablyPrime_of_undecided (h : trial n = .undecided) :
    isProbablyPrime rng n rounds k = primeRounds rng n rounds k := by
  rw [isProbablyPrime, h]

theorem isProbablyPrime_iff_of_undecided (h : trial n = .undecided) :
    (isProbablyPrime rng n rounds k).1 = true ↔
      ∀ i < rounds, mrRound n (draw (rng (k + i)) 2 (n - 2)) = true := by
  rw [isProbablyPrime_of_undecided rng rounds k h, primeRounds_iff]

end

/-- Settles O43: the answers of trial division decide, and no round draws nothing. -/
theorem isprimeByTrialDivision : Obligations.IsprimeByTrialDivision := by
  intro s rs1 rounds
  refine ⟨_, exec_isprime rfl, rfl, writesOnlyFlag_flag s _ _, fun hlt => ?below, fun hmem => ?member,
    fun _ hnot hq => ?multiple, fun h2 hq h0 => ?noRound⟩
  case below => exact Prod.ext_iff.1 (isProbablyPrime_of_composite _ _ _ (trial_eq_composite_iff.2 (.inl hlt)))
  case member => exact Prod.ext_iff.1 (isProbablyPrime_of_prime _ _ _ (trial_eq_prime_iff.2 hmem))
  case multiple =>
    exact Prod.ext_iff.1 (isProbablyPrime_of_composite _ _ _ (trial_eq_composite_iff.2 (.inr ⟨hnot, hq⟩)))
  case noRound =>
    subst h0
    exact Prod.ext_iff.1 (isProbablyPrime_of_undecided _ _ _ (trial_eq_undecided_iff.2 ⟨h2, hq⟩))

/-- Settles O44: an undecided number is left to the rounds. -/
theorem isprimeByDrawnWitnesses : Obligations.IsprimeByDrawnWitnesses := by
  intro s rs1 rounds h2 hq
  have ht := trial_eq_undecided_iff.2 ⟨h2, hq⟩
  obtain ⟨hlo, hhi⟩ := primeRounds_draws Config.rng (s.x rs1) rounds s.draws
  exact ⟨_, exec_isprime (isProbablyPrime_of_undecided _ _ _ ht), rfl, hlo, hhi, primeRounds_iff _ _ _ _⟩

/-- A draw is of its range (R41). -/
theorem draw_mem (w : Nat) {lo hi : Int} (h : lo ≤ hi) : lo ≤ draw w lo hi ∧ draw w lo hi ≤ hi := by
  have h0 := Int.emod_nonneg (w : Int) (show hi - lo + 1 ≠ 0 by omega)
  have h1 := Int.emod_lt_of_pos (w : Int) (show 0 < hi - lo + 1 by omega)
  unfold draw
  omega

/-- Every integer of the range is the draw of some word (R41). -/
theorem exists_draw_eq {a lo hi : Int} (hlo : lo ≤ a) (hhi : a ≤ hi) : ∃ w, draw w lo hi = a := by
  refine ⟨(a - lo).toNat, ?_⟩
  rw [draw, Int.toNat_of_nonneg (by omega), Int.emod_eq_of_lt (by omega) (by omega)]
  omega

/-- Settles O45: a source that supplies one witness for ever gives the result of that witness, and every result is that
of drawn witnesses. -/
theorem isprimeResultSet : Obligations.IsprimeResultSet := by
  intro n rounds k ht
  have hn : 2 ≤ n - 2 := by
    have := odd_and_31_le_of_undecided ht
    omega
  have hiff (rng : Nat → Nat) : (isProbablyPrime rng n rounds k).1 = true ↔
      ∀ i < rounds, mrRound n (draw (rng (k + i)) 2 (n - 2)) = true :=
    isProbablyPrime_iff_of_undecided rng rounds k ht
  refine ⟨⟨?_, ?_⟩, ⟨?_, ?_⟩⟩
  · rintro ⟨rng, h⟩
    refine rounds.eq_zero_or_pos.imp_right fun hr => ?_
    obtain ⟨h0, h1⟩ := draw_mem (rng (k + 0)) hn
    exact ⟨_, h0, h1, (hiff rng).1 h 0 hr⟩
  · rintro (rfl | ⟨a, h0, h1, ha⟩)
    · exact ⟨fun _ => 0, (hiff _).2 (by simp)⟩
    · obtain ⟨w, rfl⟩ := exists_draw_eq h0 h1
      exact ⟨fun _ => w, (hiff _).2 fun _ _ => ha⟩
  · rintro ⟨rng, h⟩
    have hfail : ¬∀ i < rounds, mrRound n (draw (rng (k + i)) 2 (n - 2)) = true := by
      rw [← hiff, h]
      exact Bool.false_ne_true
    push Not at hfail
    obtain ⟨i, hi, hround⟩ := hfail
    obtain ⟨h0, h1⟩ := draw_mem (rng (k + i)) hn
    exact ⟨by omega, _, h0, h1, Bool.eq_false_of_not_eq_true hround⟩
  · rintro ⟨hr, a, h0, h1, ha⟩
    obtain ⟨w, rfl⟩ := exists_draw_eq h0 h1
    refine ⟨fun _ => w, Bool.eq_false_of_not_eq_true fun h => ?_⟩
    exact Bool.false_ne_true (ha.symm.trans ((hiff _).1 h 0 hr))

/-! ## Primes pass (R147) -/

/-- Where the last of a chain of squares is 1 modulo a prime, the first is 1 or one before the last is -1. -/
theorem prime_dvd_sub_one_or_add_one {p : Int} (hp : Prime p) {b : Int} (r : Nat) (h : p ∣ b ^ 2 ^ r - 1) :
    p ∣ b - 1 ∨ ∃ k < r, p ∣ b ^ 2 ^ k + 1 := by
  induction r with
  | zero => exact .inl (by simpa using h)
  | succ r ih =>
    have hfactor : b ^ 2 ^ (r + 1) - 1 = (b ^ 2 ^ r - 1) * (b ^ 2 ^ r + 1) := by ring
    rw [hfactor] at h
    rcases hp.dvd_or_dvd h with h | h
    · exact (ih h).imp_right fun ⟨k, hk, hdvd⟩ => ⟨k, hk.trans r.lt_succ_self, hdvd⟩
    · exact .inr ⟨r, r.lt_succ_self, h⟩

/-- Every witness passes its round when `n` is an odd prime (R147), by Fermat's little theorem. -/
theorem mrRound_of_prime {p : Nat} (hp : p.Prime) (h3 : 3 ≤ p) {a : Int} (ha0 : 0 < a) (hap : a < p) :
    mrRound p a = true := by
  have hodd : p % 2 = 1 := hp.mod_two_eq_one_iff_ne_two.2 (by omega)
  obtain ⟨d, r, h, hd, hr⟩ := exists_split (n := p) (by omega) (by omega)
  have hcop : IsCoprime a p :=
    ((Nat.prime_iff_prime_int.1 hp).coprime_iff_not_dvd.2 fun hdvd => (Int.le_of_dvd ha0 hdvd).not_gt hap).symm
  have hexp : p - 1 = d * 2 ^ r := by
    zify [hp.one_le]
    exact h
  have hfermat : (p : Int) ∣ (a ^ d) ^ 2 ^ r - 1 := by
    rw [← pow_mul, ← hexp]
    exact (Int.ModEq.pow_card_sub_one_eq_one hp hcop).symm.dvd
  rw [mrRound_iff (by omega) h hd hr]
  simpa only [pow_mul] using prime_dvd_sub_one_or_add_one (Nat.prime_iff_prime_int.1 hp) r hfermat

/-- Trial division rejects no prime: a factor in the small-prime set is the prime itself (R145). -/
theorem trial_prime_ne_composite {p : Nat} (hp : p.Prime) : trial p ≠ .composite := by
  rw [Ne, trial_eq_composite_iff]
  rintro (hlt | ⟨hnot, q, hq, hdvd⟩)
  · have := hp.two_le
    omega
  · have hq2 := two_le_of_mem_smallPrimes q hq
    lift q to Nat using by omega
    rcases hp.eq_one_or_self_of_dvd q (Int.natCast_dvd_natCast.1 hdvd) with rfl | rfl
    · omega
    · exact hnot hq

theorem isProbablyPrime_of_natPrime (rng : Nat → Nat) {p : Nat} (hp : p.Prime) (rounds k : Nat) :
    (isProbablyPrime rng p rounds k).1 = true := by
  cases ht : trial p with
  | prime => rw [isProbablyPrime_of_prime _ _ _ ht]
  | composite => exact absurd ht (trial_prime_ne_composite hp)
  | undecided =>
    obtain ⟨-, h31⟩ := odd_and_31_le_of_undecided ht
    refine (isProbablyPrime_iff_of_undecided rng rounds k ht).2 fun i _ => ?_
    obtain ⟨h0, h1⟩ := draw_mem (rng (k + i)) (show (2 : Int) ≤ p - 2 by omega)
    exact mrRound_of_prime hp (by omega) (by omega) (by omega)

/-- Settles O46: trial division rejects no prime, and every witness of an odd prime passes. -/
theorem primesAreAlwaysAccepted : Obligations.PrimesAreAlwaysAccepted := by
  intro s rs1 rounds hp
  have h2 := hp.two_le
  have hcast : ((s.x rs1).toNat : Int) = s.x rs1 := Int.toNat_of_nonneg (by omega)
  have h := isProbablyPrime_of_natPrime Config.rng hp rounds s.draws
  rw [hcast] at h
  exact ⟨_, exec_isprime rfl, rfl, h⟩

end Sys2Proof.Machine
end

section
/-! PROOFS. The statements of spec/42_ec_point.md: the functions of points (R160 to R166), the point commands (R167 to
R170), and the invariant that a command on points of the curve leaves points of the curve. -/

namespace Sys2Proof.Machine

/-! ## The range of a point and the equation of the curve (R160, R162) -/

theorem pointInRange_aff_iff {p x y : Int} :
    pointInRange p (.aff x y) = true ↔ 0 ≤ x ∧ x ≤ p - 1 ∧ 0 ≤ y ∧ y ≤ p - 1 := by
  simp [pointInRange, and_assoc]

theorem pointInRange_of_not_outside {p : Int} {q : Point} (h : pointOutside p q = false) : pointInRange p q = true := by
  cases q with
  | inf => rfl
  | aff x y =>
    simp only [pointOutside, Bool.or_eq_false_iff, decide_eq_false_iff_not] at h
    exact pointInRange_aff_iff.2 (by omega)

theorem ecCheck_iff {p : Int} {qs : List Point} :
    ecCheck p qs = true ↔ 1 ≤ p ∧ ∀ q ∈ qs, pointInRange p q = true := by
  simp [ecCheck]

theorem ecOn_aff_iff {a b p x y : Int} :
    ecOn a b p (.aff x y) = true ↔ p ∣ y * y - (x * x * x + a * x + b) :=
  beq_iff_eq.trans Int.dvd_iff_emod_eq_zero.symm

/-- `Inf`, or a point with coordinates in `[0, p-1]` that meets the equation modulo `p`. -/
def IsCurvePoint (a b p : Int) (q : Point) : Prop := pointInRange p q = true ∧ ecOn a b p q = true

theorem State.onCurve_iff {s : State} : s.OnCurve ↔ ∀ j, IsCurvePoint s.curveA s.curveB s.curveP (s.pt j) := Iff.rfl

theorem isCurvePoint_inf (a b p : Int) : IsCurvePoint a b p .inf := ⟨rfl, rfl⟩

/-! ## The slope and the third point (R163, R165) -/

theorem dvd_emod_sub_self (n p : Int) : p ∣ emod n p - n := (Int.mod_modEq n p).symm.dvd

theorem emod_mem {p : Int} (hp : 1 ≤ p) (n : Int) : 0 ≤ emod n p ∧ emod n p ≤ p - 1 :=
  ⟨Int.emod_nonneg n (by omega), Int.le_sub_one_of_lt (Int.emod_lt_of_pos n (by omega))⟩

/-- A quotient modulo `p` exists where the denominator is prime to `p`: it is the slope of a chord or a tangent. -/
theorem inv_slope {p : Int} (hp : 1 ≤ p) (n d : Int) :
    (Int.gcd d p ≠ 1 ∧ inv d p = none) ∨
      (Int.gcd d p = 1 ∧ ∃ i, inv d p = some i ∧ p ∣ emod (n * i) p * d - n) := by
  by_cases hg : Int.gcd d p = 1
  · obtain ⟨i, hi⟩ := exists_inv_eq_some hp hg
    obtain ⟨-, -, hinv⟩ := (inv_eq_some_iff d hp i).1 hi
    have hslope : emod (n * i) p * d - n = (emod (n * i) p - n * i) * d + n * (d * i - 1) := by ring
    refine .inr ⟨hg, i, hi, ?_⟩
    rw [hslope]
    exact dvd_add ((dvd_emod_sub_self _ p).mul_right d) (hinv.mul_left n)
  · exact .inl ⟨hg, (inv_eq_none_iff d hp).2 (by rwa [Int.gcd_emod])⟩

/-- The two coordinates of the third point, by range and congruence. -/
theorem chordPoint_spec {p : Int} (hp : 1 ≤ p) (k x1 y1 x2 : Int) :
    ∃ x3 y3, chordPoint p k x1 y1 x2 = .aff x3 y3 ∧ 0 ≤ x3 ∧ x3 ≤ p - 1 ∧ 0 ≤ y3 ∧ y3 ≤ p - 1 ∧
      p ∣ x3 - (k * k - x1 - x2) ∧ p ∣ y3 - (k * (x1 - x3) - y1) := by
  obtain ⟨hx0, hx1⟩ := emod_mem hp (k * k - x1 - x2)
  obtain ⟨hy0, hy1⟩ := emod_mem hp (k * (x1 - emod (k * k - x1 - x2) p) - y1)
  exact ⟨_, _, rfl, hx0, hx1, hy0, hy1, dvd_emod_sub_self _ p, dvd_emod_sub_self _ p⟩

theorem pointInRange_chordPoint {p : Int} (hp : 1 ≤ p) (k x1 y1 x2 : Int) :
    pointInRange p (chordPoint p k x1 y1 x2) = true := by
  obtain ⟨x3, y3, h, hx0, hx1, hy0, hy1, -, -⟩ := chordPoint_spec hp k x1 y1 x2
  rw [h]
  exact pointInRange_aff_iff.2 ⟨hx0, hx1, hy0, hy1⟩

/-- The slope counts modulo `p` only. -/
theorem chordPoint_congr {p k k' : Int} (h : k ≡ k' [ZMOD p]) (x1 y1 x2 : Int) :
    chordPoint p k x1 y1 x2 = chordPoint p k' x1 y1 x2 := by
  have hx : emod (k * k - x1 - x2) p = emod (k' * k' - x1 - x2) p := ((h.mul h).sub_right x1).sub_right x2
  have hy (x3 : Int) : emod (k * (x1 - x3) - y1) p = emod (k' * (x1 - x3) - y1) p := (h.mul_right _).sub_right y1
  simp only [chordPoint, hx, hy]

/-- The chord through two points is the chord through them in the other order. -/
theorem chordPoint_comm {p k x1 y1 x2 y2 : Int} (h : p ∣ k * (x2 - x1) - (y2 - y1)) :
    chordPoint p k x1 y1 x2 = chordPoint p k x2 y2 x1 := by
  have hy (x3 : Int) : emod (k * (x1 - x3) - y1) p = emod (k * (x2 - x3) - y2) p :=
    Int.modEq_iff_dvd.2 (h.trans (dvd_of_eq (by ring)))
  simp only [chordPoint, sub_right_comm (k * k) x1 x2, hy]

/-- The third point is on the curve if the line through the first point has the slope of a secant: the difference of
the cubic and the squared line, divided by `x2 - x1`, vanishes. With `x2 = x1` that is the slope of the tangent. -/
theorem isCurvePoint_chordPoint {a b p k x1 y1 x2 : Int} (hp : 1 ≤ p) (h1 : ecOn a b p (.aff x1 y1) = true)
    (hs : p ∣ x1 * x1 + x1 * x2 + x2 * x2 + a - k * (2 * y1 + k * (x2 - x1))) :
    IsCurvePoint a b p (chordPoint p k x1 y1 x2) := by
  refine ⟨pointInRange_chordPoint hp k x1 y1 x2, ?_⟩
  obtain ⟨x3, y3, h, -, -, -, -, hx, hy⟩ := chordPoint_spec hp k x1 y1 x2
  rw [ecOn_aff_iff] at h1
  have hroots : y3 * y3 - (x3 * x3 * x3 + a * x3 + b) =
      (y3 - (k * (x1 - x3) - y1)) * (y3 + (k * (x1 - x3) - y1)) -
        (x3 - (k * k - x1 - x2)) * ((x3 - x1) * (x3 - x2)) -
        (x1 * x1 + x1 * x2 + x2 * x2 + a - k * (2 * y1 + k * (x2 - x1))) * (x3 - x1) +
        (y1 * y1 - (x1 * x1 * x1 + a * x1 + b)) := by ring
  rw [h, ecOn_aff_iff, hroots]
  exact dvd_add (dvd_sub (dvd_sub (hy.mul_right _) (hx.mul_right _)) (hs.mul_right _)) h1

/-! ## The negative (R161) -/

theorem ecNeg_aff_spec {p : Int} (hp : 1 ≤ p) (x y : Int) :
    ∃ y', ecNeg p (.aff x y) = .aff x y' ∧ 0 ≤ y' ∧ y' ≤ p - 1 ∧ p ∣ y + y' := by
  obtain ⟨h0, h1⟩ := emod_mem hp (-y)
  exact ⟨_, rfl, h0, h1, by simpa [add_comm] using dvd_emod_sub_self (-y) p⟩

theorem pointInRange_ecNeg {p : Int} (hp : 1 ≤ p) {q : Point} (hq : pointInRange p q = true) :
    pointInRange p (ecNeg p q) = true := by
  cases q with
  | inf => rfl
  | aff x y =>
    obtain ⟨hx0, hx1, -, -⟩ := pointInRange_aff_iff.1 hq
    obtain ⟨y', h, hy0, hy1, -⟩ := ecNeg_aff_spec hp x y
    rw [h]
    exact pointInRange_aff_iff.2 ⟨hx0, hx1, hy0, hy1⟩

theorem IsCurvePoint.ecNeg {a b p : Int} (hp : 1 ≤ p) {q : Point} (hq : IsCurvePoint a b p q) :
    IsCurvePoint a b p (ecNeg p q) := by
  obtain ⟨hr, ho⟩ := hq
  refine ⟨pointInRange_ecNeg hp hr, ?_⟩
  cases q with
  | inf => rfl
  | aff x y =>
    obtain ⟨y', h, -, -, hy⟩ := ecNeg_aff_spec hp x y
    have hsq : y' * y' - (x * x * x + a * x + b) = (y + y') * (y' - y) + (y * y - (x * x * x + a * x + b)) := by ring
    rw [h, ecOn_aff_iff, hsq]
    exact dvd_add (hy.mul_right _) (ecOn_aff_iff.1 ho)

/-! ## The double (R163) -/

/-- The double of an affine point: `Inf` where `2y` is not invertible, else the third point of the tangent. -/
theorem ecDbl_aff_cases {p : Int} (hp : 1 ≤ p) (a x y : Int) :
    (Int.gcd (2 * y) p ≠ 1 ∧ ecDbl a p (.aff x y) = .inf) ∨
      (Int.gcd (2 * y) p = 1 ∧ ∃ k, p ∣ k * (2 * y) - (3 * x * x + a) ∧
        ecDbl a p (.aff x y) = chordPoint p k x y x) := by
  rcases inv_slope hp (3 * x * x + a) (2 * y) with ⟨hg, hi⟩ | ⟨hg, i, hi, hk⟩
  · exact .inl ⟨hg, by simp [ecDbl, hi]⟩
  · exact .inr ⟨hg, _, hk, by simp [ecDbl, hi]⟩

theorem pointInRange_ecDbl {p : Int} (hp : 1 ≤ p) (a : Int) (q : Point) : pointInRange p (ecDbl a p q) = true := by
  cases q with
  | inf => rfl
  | aff x y =>
    rcases ecDbl_aff_cases hp a x y with ⟨-, h⟩ | ⟨-, k, -, h⟩ <;> rw [h]
    · rfl
    · exact pointInRange_chordPoint hp k x y x

theorem IsCurvePoint.ecDbl {a b p : Int} (hp : 1 ≤ p) {q : Point} (hq : IsCurvePoint a b p q) :
    IsCurvePoint a b p (ecDbl a p q) := by
  cases q with
  | inf => exact isCurvePoint_inf a b p
  | aff x y =>
    rcases ecDbl_aff_cases hp a x y with ⟨-, h⟩ | ⟨-, k, hk, h⟩ <;> rw [h]
    · exact isCurvePoint_inf a b p
    · exact isCurvePoint_chordPoint hp hq.2 ((dvd_neg.2 hk).trans (dvd_of_eq (by ring)))

/-! ## The sum (R165) -/

@[simp] theorem ecAdd_inf_left (a p : Int) (q : Point) : ecAdd a p .inf q = q := rfl

@[simp] theorem ecAdd_inf_right (a p : Int) (q : Point) : ecAdd a p q .inf = q := by cases q <;> rfl

theorem ecAdd_self (a p : Int) (q : Point) : ecAdd a p q q = ecDbl a p q := by
  cases q <;> simp [ecAdd, ecDbl]

theorem ecAdd_aff_of_ne_right (a p x : Int) {y1 y2 : Int} (hy : y1 ≠ y2) :
    ecAdd a p (.aff x y1) (.aff x y2) = .inf := by
  simp [ecAdd, hy]

/-- The sum of points with different abscissas: `Inf` where their difference is not invertible, else the third point of
the chord. -/
theorem ecAdd_aff_cases_of_ne {p x1 x2 : Int} (hp : 1 ≤ p) (hx : x1 ≠ x2) (a y1 y2 : Int) :
    (Int.gcd (x2 - x1) p ≠ 1 ∧ ecAdd a p (.aff x1 y1) (.aff x2 y2) = .inf) ∨
      (Int.gcd (x2 - x1) p = 1 ∧ ∃ k, p ∣ k * (x2 - x1) - (y2 - y1) ∧
        ecAdd a p (.aff x1 y1) (.aff x2 y2) = chordPoint p k x1 y1 x2) := by
  rcases inv_slope hp (y2 - y1) (x2 - x1) with ⟨hg, hi⟩ | ⟨hg, i, hi, hk⟩
  · exact .inl ⟨hg, by simp [ecAdd, hx, hi]⟩
  · exact .inr ⟨hg, _, hk, by simp [ecAdd, hx, hi]⟩

/-- Everything the sum of two points can be. -/
theorem ecAdd_cases {p : Int} (hp : 1 ≤ p) (a : Int) (q1 q2 : Point) :
    ecAdd a p q1 q2 = .inf ∨ ecAdd a p q1 q2 = q1 ∨ ecAdd a p q1 q2 = q2 ∨ ecAdd a p q1 q2 = ecDbl a p q1 ∨
      ∃ x1 y1 x2 y2 k, q1 = .aff x1 y1 ∧ q2 = .aff x2 y2 ∧ Int.gcd (x2 - x1) p = 1 ∧
        p ∣ k * (x2 - x1) - (y2 - y1) ∧ ecAdd a p q1 q2 = chordPoint p k x1 y1 x2 := by
  rcases q1 with _ | ⟨x1, y1⟩
  · simp
  rcases q2 with _ | ⟨x2, y2⟩
  · simp
  by_cases hx : x1 = x2
  · subst hx
    by_cases hy : y1 = y2
    · subst hy
      simp [ecAdd_self]
    · simp [ecAdd_aff_of_ne_right a p x1 hy]
  · rcases ecAdd_aff_cases_of_ne hp hx a y1 y2 with ⟨-, h⟩ | ⟨hg, k, hk, h⟩
    · exact .inl h
    · exact .inr (.inr (.inr (.inr ⟨x1, y1, x2, y2, k, rfl, rfl, hg, hk, h⟩)))

theorem pointInRange_ecAdd {p : Int} (hp : 1 ≤ p) (a : Int) {q1 q2 : Point} (h1 : pointInRange p q1 = true)
    (h2 : pointInRange p q2 = true) : pointInRange p (ecAdd a p q1 q2) = true := by
  rcases ecAdd_cases hp a q1 q2 with h | h | h | h | ⟨x1, y1, x2, y2, k, -, -, -, -, h⟩ <;> rw [h]
  · rfl
  · exact h1
  · exact h2
  · exact pointInRange_ecDbl hp a q1
  · exact pointInRange_chordPoint hp k x1 y1 x2

/-- The chord through two points of the curve whose abscissas differ by a unit has the slope of a secant. -/
theorem dvd_secant {a b p k x1 y1 x2 y2 : Int} (h1 : p ∣ y1 * y1 - (x1 * x1 * x1 + a * x1 + b))
    (h2 : p ∣ y2 * y2 - (x2 * x2 * x2 + a * x2 + b)) (hg : Int.gcd (x2 - x1) p = 1)
    (hk : p ∣ k * (x2 - x1) - (y2 - y1)) :
    p ∣ x1 * x1 + x1 * x2 + x2 * x2 + a - k * (2 * y1 + k * (x2 - x1)) := by
  have hmul : (x2 - x1) * (x1 * x1 + x1 * x2 + x2 * x2 + a - k * (2 * y1 + k * (x2 - x1))) =
      (y1 * y1 - (x1 * x1 * x1 + a * x1 + b)) - (y2 * y2 - (x2 * x2 * x2 + a * x2 + b)) -
        (k * (x2 - x1) - (y2 - y1)) * (k * (x2 - x1) + (y1 + y2)) := by ring
  have hdvd : p ∣ (x2 - x1) * (x1 * x1 + x1 * x2 + x2 * x2 + a - k * (2 * y1 + k * (x2 - x1))) := by
    rw [hmul]
    exact dvd_sub (dvd_sub h1 h2) (hk.mul_right _)
  exact (Int.isCoprime_iff_gcd_eq_one.2 hg).symm.dvd_of_dvd_mul_left hdvd

theorem IsCurvePoint.ecAdd {a b p : Int} (hp : 1 ≤ p) {q1 q2 : Point} (h1 : IsCurvePoint a b p q1)
    (h2 : IsCurvePoint a b p q2) : IsCurvePoint a b p (ecAdd a p q1 q2) := by
  rcases ecAdd_cases hp a q1 q2 with h | h | h | h | ⟨x1, y1, x2, y2, k, rfl, rfl, hg, hk, h⟩ <;> rw [h]
  · exact isCurvePoint_inf a b p
  · exact h1
  · exact h2
  · exact h1.ecDbl hp
  · exact isCurvePoint_chordPoint hp h1.2 (dvd_secant (ecOn_aff_iff.1 h1.2) (ecOn_aff_iff.1 h2.2) hg hk)

/-! ## The scalar multiple (R190) -/

/-- The loop of R190 adds and doubles only: what both keep holds of its result. -/
theorem smulLoop_closed {P : Point → Prop} {a p : Int} (hdbl : ∀ q, P q → P (ecDbl a p q))
    (hadd : ∀ q1 q2, P q1 → P q2 → P (ecAdd a p q1 q2)) (fuel k : Nat) {acc addend : Point} (hacc : P acc)
    (haddend : P addend) : P (smulLoop a p fuel k acc addend) := by
  induction fuel generalizing k acc addend with
  | zero => exact hacc
  | succ fuel ih =>
    rw [smulLoop]
    split
    · exact hacc
    · refine ih (k / 2) ?_ (hdbl addend haddend)
      split
      · exact hadd acc addend hacc haddend
      · exact hacc

/-- What `Inf` has and the negative, the double and the sum keep holds of every multiple. -/
theorem ecSmul_closed {P : Point → Prop} {a p : Int} (hinf : P .inf) (hneg : ∀ q, P q → P (ecNeg p q))
    (hdbl : ∀ q, P q → P (ecDbl a p q)) (hadd : ∀ q1 q2, P q1 → P q2 → P (ecAdd a p q1 q2)) (k : Int) {q : Point}
    (hq : P q) : P (ecSmul a p k q) := by
  unfold ecSmul
  split
  · exact hinf
  split
  · exact smulLoop_closed hdbl hadd _ _ hinf (hneg q hq)
  · exact smulLoop_closed hdbl hadd _ _ hinf hq

theorem IsCurvePoint.ecSmul {a b p : Int} (hp : 1 ≤ p) (k : Int) {q : Point} (hq : IsCurvePoint a b p q) :
    IsCurvePoint a b p (ecSmul a p k q) :=
  ecSmul_closed (isCurvePoint_inf a b p) (fun _ h => h.ecNeg hp) (fun _ h => h.ecDbl hp)
    (fun _ _ h1 h2 => h1.ecAdd hp h2) k hq

/-! ## The end with a result in a point register -/

/-- A point with coordinates in `[0, p-1]` is what its register then holds (R26): `p` itself fits a register. -/
theorem State.pt_setPt_of_inRange (s : State) (pd j : PIdx) {q : Point} (hq : pointInRange s.curveP q = true) :
    (s.setPt pd q).pt j = if j = pd then q else s.pt j := by
  have hp : s.curveP < 2 ^ (s.build.W - 1) := s.int_lt_two_pow .cp
  refine s.pt_setPt pd j q fun x y h => ?_
  subst h
  obtain ⟨hx0, hx1, hy0, hy1⟩ := pointInRange_aff_iff.1 hq
  exact ⟨fits_iff.2 ⟨by omega, by omega⟩, fits_iff.2 ⟨by omega, by omega⟩⟩

theorem State.pt_succeed (s : State) (j : PIdx) : s.succeed.pt j = s.pt j := by simp [State.pt]

theorem completionFrame_succeed_setPt (s : State) (pd : PIdx) (q : Point) :
    CompletionFrame s (s.setPt pd q).succeed := by
  constructor <;> simp

/-- The end with a result in a point register writes that register and the status, whatever the result. -/
theorem writesOnlyPoint_succeed_setPt (s : State) (pd : PIdx) (q : Point) :
    WritesOnlyPoint pd s (s.setPt pd q).succeed := by
  have hwide {v : WideReg} (hx : v ≠ .px pd) (hy : v ≠ .py pd) : (s.setPt pd q).succeed.wide v = s.wide v :=
    ((s.setPt pd q).wide_finish 0 v).trans ((s.wide_setPt pd q v).trans ((if_neg hx).trans (if_neg hy)))
  have hwin : KeepsWindow s (s.setPt pd q).succeed
      fun w => w = .ptag ∨ ∃ k, w = .limb (.px pd) k ∨ w = .limb (.py pd) k :=
    keepsWindow_of rfl rfl rfl (fun h => absurd (.inl rfl) h) fun v k hv =>
      congrArg (readLimb · k) (hwide (fun h => hv (.inr ⟨k, .inl (h ▸ rfl)⟩)) fun h => hv (.inr ⟨k, .inr (h ▸ rfl)⟩))
  exact ⟨completionFrame_succeed_setPt s pd q, fun _ => congrArg sint (hwide nofun nofun),
    fun _ hj => keepsPoint_setPt s q hj, rfl, rfl, hwin⟩

/-- A command that ends with a point of coordinates in `[0, p-1]` ends with code 0, writes `Pd` alone and leaves the
point there, `Inf` with zero coordinates. -/
theorem exists_point_end {i : Instr} {s : State} {pd : PIdx} {q : Point}
    (he : exec i s = .next (s.setPt pd q).succeed) (hq : pointInRange s.curveP q = true) :
    ∃ t, exec i s = .next t ∧ t.err = 0 ∧ WritesOnlyPoint pd s t ∧
      (t.pt pd = .inf → t.int (.px pd) = 0 ∧ t.int (.py pd) = 0) ∧ t.pt pd = q := by
  have hpt : (s.setPt pd q).succeed.pt pd = q := by
    rw [State.pt_succeed, s.pt_setPt_of_inRange pd pd hq, if_pos rfl]
  refine ⟨_, he, rfl, writesOnlyPoint_succeed_setPt s pd q, fun hinf => ?_, hpt⟩
  obtain rfl : q = .inf := hpt.symm.trans hinf
  simp [pointImage, sint]

/-- A command on valid points passes its check (R160). -/
theorem State.ecChecked_of_valid {s : State} (s' : State) {qs : List Point} (hp : 1 ≤ s.curveP)
    (hqs : ∀ q ∈ qs, pointInRange s.curveP q = true) : s.ecChecked qs s' = .next s'.succeed :=
  if_pos (ecCheck_iff.2 ⟨hp, hqs⟩)

/-! ## A command on points of the curve leaves points of the curve -/

/-- A Complete after which each point register holds what it held or a point of the curve keeps the invariant. -/
theorem State.OnCurve.of_frame {s t : State} (hs : s.OnCurve) (hf : CompletionFrame s t)
    (hpt : ∀ j, KeepsPoint s t j ∨ IsCurvePoint s.curveA s.curveB s.curveP (t.pt j)) : t.OnCurve := by
  have ha : t.curveA = s.curveA := hf.ca
  have hb : t.curveB = s.curveB := hf.cb
  have hp : t.curveP = s.curveP := hf.cp
  intro j
  rw [ha, hb, hp]
  rcases hpt j with ⟨htag, hx, hy⟩ | h
  · simpa only [State.pt, htag, hx, hy] using hs j
  · exact h

theorem State.OnCurve.finish {s : State} (hs : s.OnCurve) (c : BitVec 4) : (s.finish c).OnCurve := by
  obtain ⟨hf, -, hpt, -⟩ := writesOnlyStatus_finish s c
  exact hs.of_frame hf fun j => .inl (hpt j)

theorem State.OnCurve.succeed_setX {s : State} (hs : s.OnCurve) (rd : RIdx) (n : Int) :
    (s.setX rd n).succeed.OnCurve := by
  obtain ⟨hf, -, hpt, -⟩ := writesOnlyInteger_succeed_setX s rd n
  exact hs.of_frame hf fun j => .inl (hpt j)

theorem State.OnCurve.succeed_flag {s : State} (hs : s.OnCurve) (k : Nat) (c : Bool) :
    ((s.setDraws k).setT c).succeed.OnCurve := by
  obtain ⟨hf, -, hpt, -⟩ := writesOnlyFlag_flag s k c
  exact hs.of_frame hf fun j => .inl (hpt j)

theorem State.OnCurve.succeed_setPt {s : State} (hs : s.OnCurve) (pd : PIdx) {q : Point}
    (hq : IsCurvePoint s.curveA s.curveB s.curveP q) : (s.setPt pd q).succeed.OnCurve := by
  obtain ⟨hf, -, hpt, -⟩ := writesOnlyPoint_succeed_setPt s pd q
  refine hs.of_frame hf fun j => ?_
  by_cases hj : j = pd
  · right
    rwa [State.pt_succeed, s.pt_setPt_of_inRange pd j hq.1, if_pos hj]
  · exact .inl (hpt j hj)

/-- A checked command keeps the invariant if its result does, for a valid field modulus. -/
theorem State.OnCurve.of_ecChecked {s s' t : State} {qs : List Point} (hs : s.OnCurve)
    (h : s.ecChecked qs s' = .next t) (hs' : 1 ≤ s.curveP → s'.succeed.OnCurve) : t.OnCurve := by
  rcases State.ecChecked_cases h with ⟨hc, rfl⟩ | ⟨-, rfl⟩
  · exact hs' (ecCheck_iff.1 hc).1
  · exact hs.finish _

/-- Settles O21: the negative, the double, the sum and the multiple of points of the curve are points of the curve, and
the other commands write no point. -/
theorem commandsKeepPointsOnTheCurve : Obligations.CommandsKeepPointsOnTheCurve := by
  intro s t i hs h
  have hpt := State.onCurve_iff.1 hs
  cases i with
  | nop =>
    rw [execNop_cases h]
    exact hs.finish 0
  | modred rd rs1 rs3 =>
    rcases execModred_cases h with ⟨-, rfl⟩ | ⟨-, rfl⟩
    · exact hs.finish _
    · exact hs.succeed_setX rd _
  | modinv rd rs1 rs3 =>
    rcases execModinv_cases h with ⟨-, rfl⟩ | ⟨-, -, rfl⟩ | ⟨-, v, -, rfl⟩
    · exact hs.finish _
    · exact hs.finish _
    · exact hs.succeed_setX rd v
  | modpow rd rs1 rs2 rs3 =>
    rcases execModpow_cases h with ⟨-, rfl⟩ | ⟨-, -, rfl⟩
    · exact hs.finish _
    · exact hs.succeed_setX rd _
  | mrround rs1 rs2 =>
    rcases execMrround_cases h with ⟨-, rfl⟩ | ⟨-, rfl⟩
    · exact hs.finish _
    · exact hs.succeed_flag s.draws _
  | isprime rs1 rounds =>
    rw [execIsprime_cases h]
    exact hs.succeed_flag _ _
  | econcurve ps1 => exact hs.of_ecChecked h fun _ => hs.succeed_flag s.draws _
  | ecneg pd ps1 => exact hs.of_ecChecked h fun hp => hs.succeed_setPt pd ((hpt ps1).ecNeg hp)
  | ecdbl pd ps1 => exact hs.of_ecChecked h fun hp => hs.succeed_setPt pd ((hpt ps1).ecDbl hp)
  | ecadd pd ps1 ps2 => exact hs.of_ecChecked h fun hp => hs.succeed_setPt pd ((hpt ps1).ecAdd hp (hpt ps2))
  | ecsmul pd rk ps1 => exact hs.of_ecChecked h fun hp => hs.succeed_setPt pd ((hpt ps1).ecSmul hp (s.x rk))

/-! ## The four point commands on valid points (R167 to R170) -/

section
variable {s : State} {pd ps1 ps2 : PIdx}

/-- ECONCURVE draws nothing: its end is the one of the flag with the count of draws written back. -/
theorem exec_econcurve_of_valid (hp : 1 ≤ s.curveP) (h1 : pointInRange s.curveP (s.pt ps1) = true) :
    exec (.econcurve ps1) s =
      .next ((s.setDraws s.draws).setT (ecOn s.curveA s.curveB s.curveP (s.pt ps1))).succeed :=
  State.ecChecked_of_valid _ hp (by simpa using h1)

theorem exec_ecneg_of_valid (hp : 1 ≤ s.curveP) (h1 : pointInRange s.curveP (s.pt ps1) = true) :
    exec (.ecneg pd ps1) s = .next (s.setPt pd (ecNeg s.curveP (s.pt ps1))).succeed :=
  State.ecChecked_of_valid _ hp (by simpa using h1)

theorem exec_ecdbl_of_valid (hp : 1 ≤ s.curveP) (h1 : pointInRange s.curveP (s.pt ps1) = true) :
    exec (.ecdbl pd ps1) s = .next (s.setPt pd (ecDbl s.curveA s.curveP (s.pt ps1))).succeed :=
  State.ecChecked_of_valid _ hp (by simpa using h1)

theorem exec_ecadd_of_valid (hp : 1 ≤ s.curveP) (h1 : pointInRange s.curveP (s.pt ps1) = true)
    (h2 : pointInRange s.curveP (s.pt ps2) = true) :
    exec (.ecadd pd ps1 ps2) s = .next (s.setPt pd (ecAdd s.curveA s.curveP (s.pt ps1) (s.pt ps2))).succeed :=
  State.ecChecked_of_valid _ hp (by simpa using And.intro h1 h2)

end

/-- Settles O49: the flag is `ec_on`, whose test is the congruence. -/
theorem econcurveTestsTheEquation : Obligations.EconcurveTestsTheEquation := by
  intro s ps1 hp hout
  refine ⟨_, exec_econcurve_of_valid hp (pointInRange_of_not_outside hout), rfl, writesOnlyFlag_flag s _ _, rfl,
    fun hinf => ?_, fun x y haff => ?_⟩
  · simp [hinf, ecOn]
  · rw [haff]
    exact ecOn_aff_iff

/-- Settles O50: by the range and the congruence of the negated ordinate. -/
theorem ecnegWritesTheNegative : Obligations.EcnegWritesTheNegative := by
  intro s pd ps1 hp hout
  have hr := pointInRange_of_not_outside hout
  obtain ⟨t, he, herr, hw, hz, ht⟩ := exists_point_end (exec_ecneg_of_valid (pd := pd) hp hr)
    (pointInRange_ecNeg hp hr)
  refine ⟨t, he, herr, hw, hz, fun hinf => ?_, fun x y haff => ?_⟩
  · rw [ht, hinf]
    rfl
  · rw [ht, haff]
    exact ecNeg_aff_spec hp x y

/-- Settles O51: by the two cases of the double and the coordinates of the third point. -/
theorem ecdblWritesTheDouble : Obligations.EcdblWritesTheDouble := by
  intro s pd ps1 hp hout
  obtain ⟨t, he, herr, hw, hz, ht⟩ := exists_point_end
    (exec_ecdbl_of_valid (pd := pd) hp (pointInRange_of_not_outside hout)) (pointInRange_ecDbl hp _ _)
  refine ⟨t, he, herr, hw, hz, fun hinf => ?_, fun x y haff => ?_⟩
  · rw [ht, hinf]
    rfl
  · rw [ht, haff]
    rcases ecDbl_aff_cases hp s.curveA x y with ⟨hg, h⟩ | ⟨hg, k, hk, h⟩
    · exact ⟨fun _ => h, fun hg' => absurd hg' hg⟩
    · obtain ⟨x3, y3, hc, hx0, hx1, hy0, hy1, hx, hy⟩ := chordPoint_spec hp k x y x
      rw [sub_sub, ← two_mul] at hx
      exact ⟨fun hg' => absurd hg hg', fun _ => ⟨k, x3, y3, h.trans hc, hx0, hx1, hy0, hy1, hk, hx, hy⟩⟩

/-- Settles O52: rule by rule, the general one by the coordinates of the third point. -/
theorem ecaddWritesTheSum : Obligations.EcaddWritesTheSum := by
  intro s pd ps1 ps2 hp hout1 hout2
  have hr1 := pointInRange_of_not_outside hout1
  have hr2 := pointInRange_of_not_outside hout2
  obtain ⟨t, he, herr, hw, hz, ht⟩ := exists_point_end (exec_ecadd_of_valid (pd := pd) hp hr1 hr2)
    (pointInRange_ecAdd hp _ hr1 hr2)
  refine ⟨t, he, herr, hw, hz, fun h => by simp [ht, h], fun h => by simp [ht, h], fun x1 y1 x2 y2 h1 h2 => ?_⟩
  rw [ht, h1, h2]
  refine ⟨?_, ?_, fun hne hg => ?_, fun hne hg => ?_⟩
  · rintro rfl hy
    exact ecAdd_aff_of_ne_right _ _ x1 hy
  · rintro rfl rfl
    exact ecAdd_self _ _ _
  · rcases ecAdd_aff_cases_of_ne hp hne s.curveA y1 y2 with ⟨-, h⟩ | ⟨hg', -⟩
    · exact h
    · exact absurd hg' hg
  · rcases ecAdd_aff_cases_of_ne hp hne s.curveA y1 y2 with ⟨hg', -⟩ | ⟨-, k, hk, h⟩
    · exact absurd hg hg'
    · obtain ⟨x3, y3, hc, hx0, hx1, hy0, hy1, hx, hy⟩ := chordPoint_spec hp k x1 y1 x2
      exact ⟨k, x3, y3, h.trans hc, hx0, hx1, hy0, hy1, hk, hx, hy⟩

/-! ## The facts of R166 -/

/-- A point plus its negative is `Inf`: a point that is its own negative has no tangent slope, since `p` divides `2y`. -/
theorem ecAdd_ecNeg {p : Int} (hp : 2 ≤ p) (a : Int) (q : Point) : ecAdd a p q (ecNeg p q) = .inf := by
  cases q with
  | inf => rfl
  | aff x y =>
    obtain ⟨y', h, -, -, hdvd⟩ := ecNeg_aff_spec (by omega : 1 ≤ p) x y
    rw [h]
    by_cases hy : y = y'
    · subst hy
      rw [← two_mul] at hdvd
      have hgcd : (Int.gcd (2 * y) p : Int) = p := (Int.gcd_eq_right_iff_dvd (by omega)).2 hdvd
      rw [ecAdd_self]
      rcases ecDbl_aff_cases (by omega : 1 ≤ p) a x y with ⟨-, h⟩ | ⟨hg', -⟩
      · exact h
      · omega
    · exact ecAdd_aff_of_ne_right a p x hy

/-- Two slopes of one chord are congruent, since the difference of the abscissas is a unit. -/
theorem modEq_of_slope {p k k' d n : Int} (hg : Int.gcd d p = 1) (hk : p ∣ k * d - n) (hk' : p ∣ k' * d - n) :
    k ≡ k' [ZMOD p] := by
  have hdvd : p ∣ (k' - k) * d := (dvd_sub hk' hk).trans (dvd_of_eq (by ring))
  exact Int.modEq_iff_dvd.2 ((Int.isCoprime_iff_gcd_eq_one.2 hg).symm.dvd_of_dvd_mul_right hdvd)

theorem ecAdd_comm {p : Int} (hp : 1 ≤ p) (a : Int) (q1 q2 : Point) : ecAdd a p q1 q2 = ecAdd a p q2 q1 := by
  rcases q1 with _ | ⟨x1, y1⟩
  · simp
  rcases q2 with _ | ⟨x2, y2⟩
  · simp
  by_cases hx : x1 = x2
  · subst hx
    by_cases hy : y1 = y2
    · rw [hy]
    · rw [ecAdd_aff_of_ne_right a p x1 hy, ecAdd_aff_of_ne_right a p x1 (Ne.symm hy)]
  · have hgcd : Int.gcd (x1 - x2) p = Int.gcd (x2 - x1) p := by rw [← neg_sub, Int.neg_gcd]
    rcases ecAdd_aff_cases_of_ne hp hx a y1 y2 with ⟨hg, h⟩ | ⟨hg, k, hk, h⟩ <;>
      rcases ecAdd_aff_cases_of_ne hp (Ne.symm hx) a y2 y1 with ⟨hg', h'⟩ | ⟨hg', k', hk', h'⟩
    · rw [h, h']
    · exact absurd (hgcd ▸ hg') hg
    · exact absurd (hgcd.trans hg) hg'
    · have hk1 : p ∣ k * (x1 - x2) - (y1 - y2) := (dvd_neg.2 hk).trans (dvd_of_eq (by ring))
      rw [h, h', chordPoint_comm hk, chordPoint_congr (modEq_of_slope hg' hk1 hk')]

theorem ecAdd_origin_mod_one (a : Int) : ecAdd a 1 (.aff 0 0) (.aff 0 0) = .aff 0 0 := by
  rw [ecAdd_self]
  rcases ecDbl_aff_cases le_rfl a 0 0 with ⟨hg, -⟩ | ⟨-, k, -, h⟩
  · exact absurd (Int.gcd_one_right _) hg
  · rw [h]
    simp [chordPoint, emod]

/-- Settles O56: each fact by its own lemma. -/
theorem groupLawFacts : Obligations.GroupLawFacts :=
  fun a p => ⟨fun q => ⟨ecAdd_inf_left a p q, ecAdd_inf_right a p q⟩, fun q hp _ => ecAdd_ecNeg hp a q,
    ecAdd_origin_mod_one a, ecAdd_self a p, fun q1 q2 hp _ _ => ecAdd_comm hp a q1 q2⟩

end Sys2Proof.Machine
end

section
/-! PROOFS. The statements of spec/43_ec_scalar.md: the loop of double-and-add and the scalar multiple (R190, R191), and
the command ECSMUL (R192). -/

namespace Sys2Proof.Machine

/-! ## The loop of double-and-add (R190) -/

theorem smulFrom_zero (a p : Int) (acc addend : Point) : smulFrom a p 0 acc addend = acc := by
  simp [smulFrom, smulLoop]

/-- The bound on the passes is one more than that of half the scalar, so what is left after a pass is the loop from
there. -/
theorem smulFrom_of_pos (a p : Int) {k : Nat} (hk : 0 < k) (acc addend : Point) :
    smulFrom a p k acc addend =
      smulFrom a p (k / 2) (if k % 2 = 1 then ecAdd a p acc addend else acc) (ecDbl a p addend) := by
  by_cases hone : k = 1
  · subst hone
    rfl
  · have hlog : k.log2 = (k / 2).log2 + 1 := by rw [Nat.log2_def, if_pos (by omega)]
    rw [smulFrom, smulLoop, if_neg (by omega), hlog, smulFrom]

/-- Settles O54: no pass for 0, and one pass for each bit. -/
theorem doubleAndAddFollowsTheBits : Obligations.DoubleAndAddFollowsTheBits :=
  fun a p acc addend => ⟨smulFrom_zero a p acc addend, fun _ hk => smulFrom_of_pos a p hk acc addend⟩

/-! ## The scalar multiple, rule by rule (R190, R191) -/

theorem emod_eq_zero_iff_dvd {k p : Int} : emod k p = 0 ↔ p ∣ k := Int.dvd_iff_emod_eq_zero.symm

theorem ecNeg_eq_inf_iff {p : Int} {q : Point} : ecNeg p q = .inf ↔ q = .inf := by
  cases q <;> simp [ecNeg]

/-- The negative of the negative is the point, for coordinates in `[0, p-1]`. -/
theorem ecNeg_ecNeg {p : Int} {q : Point} (hq : pointInRange p q = true) : ecNeg p (ecNeg p q) = q := by
  cases q with
  | inf => rfl
  | aff x y =>
    obtain ⟨-, -, hy0, hy1⟩ := pointInRange_aff_iff.1 hq
    have hy : emod (-emod (-y) p) p = y := calc
      emod (-emod (-y) p) p = emod (- -y) p := (Int.mod_modEq (-y) p).neg
      _ = emod y p := by rw [neg_neg]
      _ = y := Int.emod_eq_of_lt hy0 (by omega)
    simp only [ecNeg, hy]

section
variable {p k : Int} {q : Point}

theorem ecSmul_of_shortcut (a : Int) (h : p ∣ k ∨ q = .inf) : ecSmul a p k q = .inf :=
  if_pos (h.imp_left emod_eq_zero_iff_dvd.2)

theorem ecSmul_of_neg (a : Int) (hk : ¬p ∣ k) (hq : q ≠ .inf) (hneg : k < 0) :
    ecSmul a p k q = smulFrom a p (-k).toNat .inf (ecNeg p q) := by
  simp [ecSmul, doubleAndAdd, emod_eq_zero_iff_dvd, hk, hq, hneg]

theorem ecSmul_of_pos (a : Int) (hk : ¬p ∣ k) (hq : q ≠ .inf) (hpos : 0 < k) :
    ecSmul a p k q = smulFrom a p k.toNat .inf q := by
  simp [ecSmul, doubleAndAdd, emod_eq_zero_iff_dvd, hk, hq, hpos.not_gt]

theorem pointInRange_ecSmul (hp : 1 ≤ p) (a k : Int) (hq : pointInRange p q = true) :
    pointInRange p (ecSmul a p k q) = true :=
  ecSmul_closed (P := (pointInRange p · = true)) rfl (fun _ h => pointInRange_ecNeg hp h)
    (fun q _ => pointInRange_ecDbl hp a q) (fun _ _ h1 h2 => pointInRange_ecAdd hp a h1 h2) k hq

/-- A scalar and its negative take the shortcut together; else one of them is negative, and the rule for it negates
the point. -/
theorem ecSmul_neg (a : Int) (hq : pointInRange p q = true) : ecSmul a p (-k) q = ecSmul a p k (ecNeg p q) := by
  by_cases hshort : p ∣ k ∨ q = .inf
  · rw [ecSmul_of_shortcut a (hshort.imp_left (dvd_neg.2 ·)),
      ecSmul_of_shortcut a (hshort.imp_right ecNeg_eq_inf_iff.2)]
  · obtain ⟨hk, hinf⟩ := not_or.1 hshort
    have hk' : ¬p ∣ -k := mt dvd_neg.1 hk
    have hinf' : ecNeg p q ≠ .inf := mt ecNeg_eq_inf_iff.1 hinf
    have hne : k ≠ 0 := fun h => hk (h ▸ dvd_zero p)
    rcases hne.lt_or_gt with hneg | hpos
    · rw [ecSmul_of_pos a hk' hinf (by omega), ecSmul_of_neg a hk hinf' hneg, ecNeg_ecNeg hq]
    · rw [ecSmul_of_neg a hk' hinf (by omega), neg_neg, ecSmul_of_pos a hk hinf' hpos]

end

/-- Settles O55: by the sign of the scalar. -/
theorem negativeScalarNegatesThePoint : Obligations.NegativeScalarNegatesThePoint :=
  fun a _ _ _ _ hout => ecSmul_neg a (pointInRange_of_not_outside hout)

/-! ## ECSMUL on a valid point (R192) -/

theorem exec_ecsmul_of_valid {s : State} {pd ps1 : PIdx} {rk : RIdx} (hp : 1 ≤ s.curveP)
    (h1 : pointInRange s.curveP (s.pt ps1) = true) :
    exec (.ecsmul pd rk ps1) s = .next (s.setPt pd (ecSmul s.curveA s.curveP (s.x rk) (s.pt ps1))).succeed :=
  State.ecChecked_of_valid _ hp (by simpa using h1)

/-- Settles O53: the command leaves the scalar multiple in `Pd`, and each clause is a rule of the multiple. -/
theorem ecsmulRunsDoubleAndAdd : Obligations.EcsmulRunsDoubleAndAdd := by
  intro s pd rk ps1 hp hout
  have hr := pointInRange_of_not_outside hout
  obtain ⟨t, he, herr, hw, hz, ht⟩ := exists_point_end (exec_ecsmul_of_valid (pd := pd) (rk := rk) hp hr)
    (pointInRange_ecSmul hp _ _ hr)
  exact ⟨t, he, herr, hw, hz, fun h => ht.trans (ecSmul_of_shortcut _ h),
    fun hk hq hneg => ht.trans (ecSmul_of_neg _ hk hq hneg), fun hk hq hpos => ht.trans (ecSmul_of_pos _ hk hq hpos)⟩

end Sys2Proof.Machine
end

section
/-! PROOFS. The statement of spec/44_system.md: the command NOP (R200). -/

namespace Sys2Proof.Machine

/-- NOP comes to the end of a command that has its result, from the state as it stands. -/
theorem exec_nop (s : State) : exec .nop s = .next s.succeed := rfl

/-- Settles O34: NOP is the end of a Complete and nothing before it, and that end writes only the status (R79). -/
theorem nopCompletes : Obligations.NopCompletes :=
  fun s => ⟨s.succeed, exec_nop s, s.succeed_err, writesOnlyStatus_finish s 0⟩

end Sys2Proof.Machine
end

section
/-! PROOFS. The statement of spec/45_host_sequences.md: RSA decryption inverts encryption (R222, R224 to R226). -/

namespace Sys2Proof.Machine

/-! ## Powers that fix every residue of a product of two primes -/

/-- An exponent that is 1 modulo `p - 1` fixes every residue modulo the prime `p`: the multiples of `p` since it is
positive, the others by Fermat's little theorem. -/
theorem pow_modEq_self_of_prime {p k : Nat} (hp : p.Prime) (hk : 1 ≤ k) (hdvd : (p : Int) - 1 ∣ k - 1) (a : Int) :
    a ^ k ≡ a [ZMOD p] := by
  by_cases ha : (p : Int) ∣ a
  · have h0 : a ≡ 0 [ZMOD p] := Int.modEq_zero_iff_dvd.2 ha
    calc a ^ k ≡ 0 ^ k [ZMOD p] := h0.pow k
      _ = 0 := zero_pow (by omega)
      _ ≡ a [ZMOD p] := h0.symm
  · have hcop : IsCoprime a p := ((Nat.prime_iff_prime_int.1 hp).coprime_iff_not_dvd.2 ha).symm
    obtain ⟨j, hj⟩ : p - 1 ∣ k - 1 := by
      zify [hp.one_le, hk]
      exact hdvd
    calc a ^ k = (a ^ (p - 1)) ^ j * a := by rw [← pow_mul, ← hj, ← pow_succ, Nat.sub_add_cancel hk]
      _ ≡ 1 ^ j * a [ZMOD p] := ((Int.ModEq.pow_card_sub_one_eq_one hp hcop).pow j).mul_right a
      _ = a := by rw [one_pow, one_mul]

/-- An exponent that is 1 modulo `φ` fixes every residue modulo the product of two distinct primes, those that share a
factor with it included. -/
theorem pow_modEq_self_of_two_primes {p q k : Nat} (hp : p.Prime) (hq : q.Prime) (hpq : p ≠ q) (hk : 1 ≤ k)
    (hdvd : ((p : Int) - 1) * (q - 1) ∣ k - 1) (a : Int) : a ^ k ≡ a [ZMOD (p : Int) * q] :=
  (Int.modEq_and_modEq_iff_modEq_mul (by simpa using (Nat.coprime_primes hp hq).2 hpq)).1
    ⟨pow_modEq_self_of_prime hp hk ((Int.dvd_mul_right _ _).trans hdvd) a,
      pow_modEq_self_of_prime hq hk ((Int.dvd_mul_left _ _).trans hdvd) a⟩

/-- One of two distinct primes is at least 3. So `φ` is not 1, and no inverse modulo `φ` is 0. -/
theorem two_le_pred_mul_pred {p q : Nat} (hp : p.Prime) (hq : q.Prime) (hpq : p ≠ q) :
    (2 : Int) ≤ ((p : Int) - 1) * (q - 1) := by
  have hp2 := hp.two_le
  have hq2 := hq.two_le
  obtain h | h : 3 ≤ p ∨ 3 ≤ q := by omega
  all_goals nlinarith

/-- The contract of R226 in the integers: where `d` inverts `e` modulo `φ`, the power `d` of the power `e` of a message
is the message. -/
theorem rsa_pow_pow_eq_self {p q : Nat} (hp : p.Prime) (hq : q.Prime) (hpq : p ≠ q) {e d : Int} (he : 1 ≤ e)
    (hd : 0 ≤ d) (hed : ((p : Int) - 1) * (q - 1) ∣ e * d - 1) {a : Int} (ha0 : 0 ≤ a) (ha : a < (p : Int) * q) :
    (a ^ e.toNat % ((p : Int) * q)) ^ d.toNat % ((p : Int) * q) = a := by
  have hφ := two_le_pred_mul_pred hp hq hpq
  have hd_ne : d ≠ 0 := by
    rintro rfl
    have hφ1 := Int.le_of_dvd one_pos (by simpa using hed)
    omega
  lift e to Nat using by omega
  lift d to Nat using hd
  have hk : 1 ≤ e * d := Nat.mul_pos (by omega) (by omega)
  calc (a ^ e % ((p : Int) * q)) ^ d % ((p : Int) * q)
      = (a ^ e) ^ d % ((p : Int) * q) := (Int.mod_modEq _ _).pow d
    _ = a ^ (e * d) % ((p : Int) * q) := by rw [pow_mul]
    _ = a % ((p : Int) * q) := pow_modEq_self_of_two_primes hp hq hpq hk (by exact_mod_cast hed) a
    _ = a := Int.emod_eq_of_lt ha0 ha

/-! ## The three commands -/

/-- Settles O41: each command leaves its result in its own register and keeps the operands of the next, and the results
meet the contract in the integers. -/
theorem rsaRoundTripOnTheEngine : Obligations.RsaRoundTripOnTheEngine := by
  intro s p q m e n φ d c m' hnodup hp hq hpq hn hφ hm0 hm he hgcd
  obtain ⟨hmd, hed, hnd, hnc, hdc⟩ : m ≠ d ∧ e ≠ d ∧ n ≠ d ∧ n ≠ c ∧ d ≠ c := by grind
  have hφ1 : 1 ≤ s.x φ := by have := two_le_pred_mul_pred hp hq hpq; omega
  obtain ⟨t, ht, -, ⟨-, htx, -⟩, hd0, -, hinv, -⟩ := modinvWritesTheInverse s d e φ hφ1 hgcd
  have htn : t.x n = s.x n := htx n hnd
  have hte : t.x e = s.x e := htx e hed
  obtain ⟨u, hu, -, ⟨-, hux, -⟩, huc⟩ := modpowWritesThePower t c m e n (by omega) (by omega)
  have hun : u.x n = s.x n := (hux n hnc).trans htn
  have hud : u.x d = t.x d := hux d hdc
  obtain ⟨v, hv, -, -, hvm⟩ := modpowWritesThePower u m' c d n (by omega) (by omega)
  refine ⟨t, u, v, ht, hu, hv, ?_⟩
  rw [hvm, huc, hud, hun, htn, hte, htx m hmd, hn]
  exact rsa_pow_pow_eq_self hp hq hpq he hd0 (hφ ▸ hinv) hm0 (hn ▸ hm)

end Sys2Proof.Machine
end

section
/-! PROOFS. The statements of spec/60_exceptions.md: no Complete stops the engine (R240), the code each end reports
(R241, R243, R246, R247), and an error writes nothing but its code (R244). -/

namespace Sys2Proof.Machine

/-! ## A Complete, by the word in `CMD` (R79, R243) -/

section
variable {s : State}

theorem complete_of_command {i : Instr} (hd : decode s.cmd = .command i) : complete s = exec i s := by
  simp [complete, hd]

theorem complete_of_illegal (hd : decode s.cmd = .illegalCommand) :
    complete s = .next (s.raise .illegalCommand) := by
  simp [complete, hd]

end

/-- Everything a Complete can do. -/
theorem complete_cases {s t : State} (h : complete s = .next t) :
    (decode s.cmd = .illegalCommand ∧ t = s.raise .illegalCommand) ∨
      ∃ i, decode s.cmd = .command i ∧ exec i s = .next t := by
  cases hd : decode s.cmd with
  | command i => exact .inr ⟨i, rfl, complete_of_command hd ▸ h⟩
  | illegalCommand =>
    rw [complete_of_illegal hd] at h
    cases h
    exact .inl ⟨rfl, rfl⟩

/-- Every Complete comes to an end, of a legal word or not (R240). -/
theorem complete_exists_next (s : State) : ∃ t, complete s = .next t := by
  cases hd : decode s.cmd with
  | command i =>
    rw [complete_of_command hd]
    exact exec_exists_next i s
  | illegalCommand => exact ⟨_, complete_of_illegal hd⟩

theorem completionFrame_of_complete {s t : State} (h : complete s = .next t) : CompletionFrame s t := by
  rcases complete_cases h with ⟨-, rfl⟩ | ⟨i, -, hi⟩
  · exact completionFrame_finish s _
  · exact everyCommandKeepsCurveAndControl s t i hi

/-! ## An error writes nothing but its code (R244) -/

/-- A command ends with a code other than 0 only by raising an error: each other end is a `succeed`. -/
theorem exec_eq_raise_of_err_ne_zero {i : Instr} {s t : State} (h : exec i s = .next t) (he : t.err ≠ 0) :
    ∃ e, t = s.raise e := by
  cases exec_commandEnd h with
  | raised e => exact ⟨e, rfl⟩
  | _ => exact absurd (State.succeed_err _) he

/-- Settles O11: a Complete with a code raised an error, and `raise` is the update of the three fields. -/
theorem erringCompleteWritesOnlyItsCode : Obligations.ErringCompleteWritesOnlyItsCode := by
  intro s t h he
  obtain ⟨e, rfl⟩ : ∃ e, t = s.raise e := by
    rcases complete_cases h with ⟨-, ht⟩ | ⟨i, -, hi⟩
    · exact ⟨_, ht⟩
    · exact exec_eq_raise_of_err_ne_zero hi he
  rfl

/-- Settles O12: a Complete always has a next state, in its frame `BUSY` is 0, and an idle engine drops no write. -/
theorem everyCompleteLeavesAnIdleEngine : Obligations.EveryCompleteLeavesAnIdleEngine := by
  intro s
  obtain ⟨t, h⟩ := complete_exists_next s
  have hf := completionFrame_of_complete h
  refine ⟨t, h, hf.busy, hf.done, fun d => ?_⟩
  rw [busWrite_cmd t.windowAt_wordAt_cmd, State.guarded_of_idle hf.busy]

/-- Settles O10: a word of no row decodes to no command, and its error writes nothing but the status. -/
theorem illegalWordEndsWithCodeThree : Obligations.IllegalWordEndsWithCodeThree := by
  intro s h
  have hd : decode s.cmd = .illegalCommand :=
    decode_eq_illegalCommand_iff.2 fun o ho => h o (op_mem_all o) (eq_of_beq ho)
  exact ⟨_, complete_of_illegal hd, rfl, writesOnlyStatus_finish s _⟩

/-! ## The table of causes (R246) -/

/-- The table's condition on a point is the failure of the check of R160. -/
theorem pointOutside_eq_not_pointInRange (p : Int) (q : Point) : pointOutside p q = !pointInRange p q := by
  cases q with
  | inf => rfl
  | aff x y => simp only [pointOutside, pointInRange, Bool.not_and, ← decide_not, not_le]

/-- The table's condition on the points a command reads is the failure of its check. -/
theorem not_ecCheck_eq (p : Int) (qs : List Point) :
    (!ecCheck p qs) = (decide (p < 1) || qs.any (pointOutside p)) := by
  have hp : (!decide (1 ≤ p)) = decide (p < 1) := by rw [← decide_not, decide_eq_decide, not_le]
  have hqs : (!qs.all (pointInRange p)) = qs.any (pointOutside p) := by
    rw [List.not_all_eq_any_not, ← funext (pointOutside_eq_not_pointInRange p)]
  rw [ecCheck, Bool.not_and, hp, hqs]

/-- The ends of the command `i` from `s` by what they report: code 2 under the condition of the row of `i`, else code 1
for an element without inverse, else code 0. -/
inductive ReportedEnd (i : Instr) (s : State) : State → Prop
  | invalid (h : s.invalidOperands i = true) : ReportedEnd i s (s.raise .invalidParameters)
  | noInverse (h : s.invalidOperands i = false) (hn : s.nonInvertible i = true) :
      ReportedEnd i s (s.raise .nonInvertibleElement)
  | success (h : s.invalidOperands i = false) (hn : s.nonInvertible i = false) (u : State) : ReportedEnd i s u.succeed

/-- A command on points reports code 2 exactly where its check fails. -/
theorem ReportedEnd.of_ecChecked {i : Instr} {s s' t : State} {qs : List Point}
    (hi : s.invalidOperands i = (decide (s.curveP < 1) || qs.any (pointOutside s.curveP)))
    (hn : s.nonInvertible i = false) (h : s.ecChecked qs s' = .next t) : ReportedEnd i s t := by
  rw [← not_ecCheck_eq] at hi
  rcases State.ecChecked_cases h with ⟨hc, rfl⟩ | ⟨hc, rfl⟩
  · exact .success (by rw [hi, hc]; rfl) hn s'
  · exact .invalid (by rw [hi, hc]; rfl)

/-- Every command reports its end by the table of R246, and then by R241. -/
theorem exec_reportedEnd {i : Instr} {s t : State} (h : exec i s = .next t) : ReportedEnd i s t := by
  cases i with
  | nop =>
    rw [execNop_cases h]
    exact .success rfl rfl s
  | modred rd rs1 rs3 =>
    rcases execModred_cases h with ⟨hm, rfl⟩ | ⟨hm, rfl⟩
    · exact .invalid (decide_eq_true hm)
    · exact .success (by simp [State.invalidOperands, hm]) rfl _
  | modinv rd rs1 rs3 =>
    rcases execModinv_cases h with ⟨hm, rfl⟩ | ⟨hm, hv, rfl⟩ | ⟨hm, v, hv, rfl⟩
    · exact .invalid (decide_eq_true hm)
    · have hg : Int.gcd (s.x rs1) (s.x rs3) ≠ 1 := by simpa [Int.gcd_emod] using (inv_eq_none_iff _ hm).1 hv
      exact .noInverse (decide_eq_false hm.not_gt) (decide_eq_true hg)
    · obtain ⟨-, -, hdvd⟩ := (inv_eq_some_iff _ hm v).1 hv
      have hg : Int.gcd (s.x rs1) (s.x rs3) = 1 := by simpa [Int.gcd_emod] using gcd_emod_eq_one_of_dvd_mul_sub_one hdvd
      exact .success (by simp [State.invalidOperands, hm]) (by simp [State.nonInvertible, hg]) _
  | modpow rd rs1 rs2 rs3 =>
    rcases execModpow_cases h with ⟨hc, rfl⟩ | ⟨hm, he, rfl⟩
    · exact .invalid (by simpa [State.invalidOperands] using hc)
    · exact .success (by simp [State.invalidOperands, hm, he]) rfl _
  | mrround rs1 rs2 =>
    rcases execMrround_cases h with ⟨hc, rfl⟩ | ⟨hc, rfl⟩
    · exact .invalid (by simpa [State.invalidOperands, emod, or_assoc] using hc)
    · exact .success (by simpa [State.invalidOperands, emod, and_assoc] using hc) rfl _
  | isprime rs1 rounds =>
    rw [execIsprime_cases h]
    exact .success rfl rfl _
  | econcurve ps1 => exact .of_ecChecked (by simp [State.invalidOperands]) rfl h
  | ecneg pd ps1 => exact .of_ecChecked (by simp [State.invalidOperands]) rfl h
  | ecdbl pd ps1 => exact .of_ecChecked (by simp [State.invalidOperands]) rfl h
  | ecadd pd ps1 ps2 => exact .of_ecChecked (by simp [State.invalidOperands, Bool.or_assoc]) rfl h
  | ecsmul pd rk ps1 => exact .of_ecChecked (by simp [State.invalidOperands]) rfl h

/-- The conditions of the table read registers only: not `T`, the code of a previous command or the draws. -/
theorem State.invalidOperands_congr_status (s : State) (b : Bool) (e : BitVec 4) (n : Nat) (i : Instr) :
    { s with t := b, err := e, draws := n }.invalidOperands i = s.invalidOperands i := by
  cases i <;> rfl

/-- Settles O14: under the condition of its row a command can only raise InvalidParameters. -/
theorem invalidOperandsWriteNothing : Obligations.InvalidOperandsWriteNothing := by
  intro s i hi
  obtain ⟨t, h⟩ := exec_exists_next i s
  cases exec_reportedEnd h with
  | invalid => exact ⟨_, h, rfl, writesOnlyStatus_finish s _⟩
  | noInverse hi' => simp [hi] at hi'
  | success hi' => simp [hi] at hi'

/-- Settles O15: by the code of each reported end. -/
theorem everyCommandReportsOneCode : Obligations.EveryCommandReportsOneCode := by
  intro s t i h
  refine ⟨?_, fun b e n => s.invalidOperands_congr_status b e n i⟩
  cases exec_reportedEnd h with
  | invalid hi => simp [hi, Error.code]
  | noInverse hi hn => simp [hi, hn, Error.code]
  | success hi hn u => simp [hi, hn]

end Sys2Proof.Machine
end

section
/-! PROOFS. The statements of spec/70_reset_and_hazards.md: the reset state (R271), the hard and the soft reset (R270 to
R272), the completion of an accepted command (R290). -/

namespace Sys2Proof.Machine

/-! ## An accepted command is completed (R79, R290) -/

/-- A busy engine's turn is a Complete, which leaves it idle with `DONE` set. -/
theorem engineTurn_completes {s : State} (hb : s.busy = true) :
    ∃ t, engineTurn s = .next t ∧ t.busy = false ∧ t.done = true := by
  obtain ⟨t, h⟩ := complete_exists_next s
  have hf := completionFrame_of_complete h
  exact ⟨t, (if_pos hb).trans h, hf.busy, hf.done⟩

/-- Settles O33, by induction on the schedule: a host access leaves the engine busy with one event less to come, and
the engine's turn, scheduled or after the last event, is the Complete. -/
theorem acceptedCommandIsCompleted : Obligations.AcceptedCommandIsCompleted := by
  intro s hb hevents
  induction hs : s.schedule generalizing s with
  | nil =>
    obtain ⟨t, ht, hdone⟩ := engineTurn_completes hb
    have hstep : step s = .next t := (step_of_schedule_nil hs).trans ht
    exact ⟨1, t, Nat.le_refl 1, run_succ_of_step (M := core) hstep 0, hdone⟩
  | cons e rest ih =>
    rw [hs] at hevents
    obtain ⟨he, hrest⟩ := List.forall_mem_cons.1 hevents
    rcases he with he | rfl
    · obtain ⟨f, hstep, hf⟩ : ∃ f, step s = .next (s.withHost f) ∧ (s.withHost f).schedule = rest :=
        step_of_hostAccess hb hs he
      obtain ⟨k, t, hk, hrun, hdone⟩ := ih (s.withHost f) hb (hf.symm ▸ hrest) hf
      exact ⟨k + 1, t, Nat.succ_le_succ hk, (run_succ_of_step (M := core) hstep k).trans hrun, hdone⟩
    · obtain ⟨t, ht, hdone⟩ := engineTurn_completes (s := s.setSchedule rest) hb
      have hstep : step s = .next t := (step_of_schedule_cons hs).trans ht
      exact ⟨1, t, Nat.le_add_left 1 _, run_succ_of_step (M := core) hstep 0, hdone⟩

/-! ## What a reset leaves (R271, R272) -/

section
variable (s : State)

@[simp] theorem State.int_resetEngine (v : WideReg) : s.resetEngine.int v = 0 := by
  cases v <;> simp [State.int, State.wide, sint]

theorem State.pt_resetEngine (j : PIdx) : s.resetEngine.pt j = .aff 0 0 := by
  simp [State.pt]

theorem State.statusWord_resetEngine : s.resetEngine.statusWord = 0 := by
  simp [State.statusWord, flagAt, place]

/-- The soft-reset bit of `CTRL` is not stored: it reads 0 in every state (R31). -/
theorem State.ctrlWord_getLsbD_one : s.ctrlWord.getLsbD 1 = false := by
  rw [s.ctrlWord_eq]
  split <;> rfl

/-- A write to `CTRL` with the soft-reset bit set is the reset and nothing else, busy or not (R272). -/
theorem State.busWrite_softReset {d : Word} (hd : d.getLsbD 1 = true) :
    s.busWrite (wordAt 0x0008) d = s.resetEngine := by
  rw [busWrite_ctrl s.windowAt_wordAt_ctrl, State.writeCtrl, if_pos hd]

end

/-- Settles O1: both resets are `resetEngine`, which is read piece by piece; it leaves the build, on which `ID` and
`CONFIG` rest, and an idle engine. -/
theorem resetPutsEveryPieceAtItsResetValue : Obligations.ResetPutsEveryPieceAtItsResetValue := by
  intro s d hd
  have hctrl : (s.busRead (wordAt 0x0008)).getLsbD 1 = false := by
    rw [busRead_ctrl s.windowAt_wordAt_ctrl]
    exact s.ctrlWord_getLsbD_one
  exact ⟨rfl, s.busWrite_softReset hd, s.int_resetEngine, fun j => ⟨s.tag_resetEngine j, s.pt_resetEngine j⟩,
    s.resetEngine_ie, s.statusWord_resetEngine, s.resetEngine_cmd, rfl, rfl, rfl,
    engineTurn_of_idle s.resetEngine_busy, hctrl⟩

/-! ## The reset state and the status invariant (R43, R271) -/

/-- The reset state is idle, without `DONE` and with code 0. -/
theorem State.resetFor_coherent (b : Config.Build) : (State.resetFor b).Coherent := by
  simp [State.Coherent, State.resetFor]

/-- Settles O2: for the reset state of every build, of which `State.reset` is one. -/
theorem resetStateIsCoherent : Obligations.ResetStateIsCoherent :=
  ⟨State.resetFor_coherent, rfl, State.resetFor_coherent _⟩

end Sys2Proof.Machine
end
